-- ==== Sys2Proof/Word.lean ====
section
/-! DEFINITION. The widths of spec/10_state.md R47 and spec/20_memory.md R65, and the type of the
binary64 values of spec/00_scope.md R12. The arithmetic on them is in Machine/Float.lean. -/

namespace Sys2Proof

/-- `s16`: one PCM sample, two's complement (R62, R80). -/
abbrev Sample := BitVec 16

/-- `u8`: one character at the host interface (R91). -/
abbrev Char8 := BitVec 8

/-- `u5`: one code word (R84). -/
abbrev Code := BitVec 5

/-- One byte of a byte-serial carrier (R62). -/
abbrev Byte := BitVec 8

/-- An IEEE 754 binary64 value (R12). `num` holds the sign, the biased exponent field 0..2046 and the
52-bit fraction field, so that every term but `nan` is one binary64 datum and every binary64 datum but the
NaNs is one term. All NaNs are one value: no rule reads a NaN's sign or payload (log entry 2). -/
inductive F64 where
  | nan
  | inf (neg : Bool)
  | num (neg : Bool) (expo : Fin 2047) (frac : BitVec 52)
  deriving DecidableEq, Repr, Inhabited

/-- `+0.0`, the reset value of every binary64 field (R22). -/
def F64.zero : F64 := .num false 0 0

end Sys2Proof
end

