-- ==== Sys2Proof/Config.lean ====
section
/-! DEFINITION. The implementation parameters of spec/00_scope.md R6, the configuration RESET computes
from them (R21, R271), and the free values: what the spec leaves without a value. -/

namespace Sys2Proof.Config

/-! ## Rows of R6 that are fixed or derived -/

/-- `P_FS`, samples per second. -/
def sampleRate : Nat := 8000

/-- `P_BAUD`. -/
def baud : Nat := 45

/-- `P_SPB = floor(P_FS / P_BAUD)`, samples per bit (R7). -/
def samplesPerBit : Nat := sampleRate / baud

/-- `P_START_DELAY = P_SPB + floor(P_SPB / 2)` (R7, `90_conflicts.md` C8). -/
def startDelay : Nat := samplesPerBit + samplesPerBit / 2

/-- `P_FRAME_SAMPLES = 7 * P_SPB` (R7, R81). -/
def frameSamples : Nat := 7 * samplesPerBit

/-- `P_F_MARK` = 1400.0 Hz = 0x1.5ep+10. -/
def markHz : F64 := .num false 1033 0x5e00000000000

/-- `P_F_SPACE` = 1800.0 Hz = 0x1.c2p+10. -/
def spaceHz : F64 := .num false 1033 0xc200000000000

/-- `P_AMPL` = 32767.0 = 0x1.fffcp+14. -/
def amplitude : F64 := .num false 1037 0xfffc000000000

/-- `PI` = 0x1.921fb54442d18p+1 (R12). -/
def pi : F64 := .num false 1024 0x921fb54442d18

/-- `TWO_PI` = 0x1.921fb54442d18p+2 (R12). -/
def twoPi : F64 := .num false 1025 0x921fb54442d18

/-! ## Rows of R6 that a model may vary within their legal range -/

/-- The parameter record of R6. The functions are `P_TRANSCENDENTALS` (R13). -/
structure Params where
  /-- `P_BPF_BW`, Hz. -/
  bandwidth : F64
  /-- `P_LPF_FC`, Hz. -/
  cutoff : F64
  /-- `P_START_THRESHOLD`. -/
  startThreshold : F64
  /-- `P_CAPTURE_BLOCK`, samples. -/
  captureBlock : Nat
  /-- `P_GUARD_SAMPLES`; 0 selects the immediate policy (R224). -/
  guardSamples : Nat
  /-- `P_TXQ_DEPTH`; `none` is unbounded. -/
  queueDepth : Option Nat
  /-- `P_CODEBOOK`, the LTRS table, indexed by code word (R85). -/
  letters : List Char8
  /-- `P_CODEBOOK`, the FIGS table. -/
  figures : List Char8
  /-- `P_HAS_SHUTDOWN`. -/
  hasShutdown : Bool
  /-- `sin` of `P_TRANSCENDENTALS`. -/
  sin : F64 → F64
  /-- `cos` of `P_TRANSCENDENTALS`. -/
  cos : F64 → F64
  /-- `exp` of `P_TRANSCENDENTALS`. -/
  exp : F64 → F64

/-- The coefficient vectors of one filter instance: feed-forward `a` and feedback `b` (R110). -/
structure Coeffs where
  a : List F64
  b : List F64
  deriving DecidableEq, Repr

/-- What DESIGN computes (R271), less the reverse table, which `rev` derives from the codebook (R88). -/
structure Design where
  bpfMark : Coeffs
  bpfSpace : Coeffs
  lpfMark : Coeffs
  lpfSpace : Coeffs
  incMark : F64
  incSpace : F64
  deriving DecidableEq, Repr

/-- One configuration: fixed at reset, never written afterwards (R21). -/
structure Cfg where
  params : Params
  design : Design

/-! ## Free values: constants with no body, so that nothing can be proved of them -/

/-- FREE VALUE. `trunc16(v)` where `|v| <= 32767.0` does not hold (R14; log entry 3). -/
opaque trunc16Open : F64 → Sample

/-- FREE VALUE. `sin` of an infinity or a NaN (R13; log entry 4). -/
opaque sinOpen : F64 → F64

/-- FREE VALUE. `cos` of an infinity or a NaN (R13; log entry 4). -/
opaque cosOpen : F64 → F64

/-- FREE VALUE. `exp` of an infinity or a NaN (R13; log entry 4). -/
opaque expOpen : F64 → F64

/-- FREE VALUE. Which of its two neighbours `sin` of a finite operand rounds to, on an operand where the
interval of Machine/Transcendental.lean does not decide it (R13; log entry 4). -/
opaque sinRoundsUp : F64 → Bool

/-- FREE VALUE. As `sinRoundsUp`, for `cos` (R13; log entry 4). -/
opaque cosRoundsUp : F64 → Bool

/-- FREE VALUE. As `sinRoundsUp`, for `exp` (R13; log entry 4). -/
opaque expRoundsUp : F64 → Bool

end Sys2Proof.Config
end

