-- ==== Sys2Proof/Syntax.lean ====
section
/-! DEFINITION. The instructions: one constructor for each row of spec/opcode_table.json. -/

namespace Sys2Proof

/-- `play_resp`, the playback device's answer to an offered sample: 0 ACCEPT, 1 BUSY, 2 STALL, 3 reserved
(R47, R245). -/
inductive PlayResp where
  | accept
  | busy
  | stall
  | reserved
  deriving DecidableEq, Repr

/-- One constructor per row of spec/opcode_table.json: 32 CODE5 rows (R158), 5 STIM32 rows (R98) and 12 OP
rows (R94). The two rows RESET and the two rows SHUTDOWN are `reset`, `opReset`, `shutdown`, `opShutdown`. -/
inductive Instr where
  -- format CODE5
  | code00
  | code01
  | code02
  | code03
  | code04
  | code05
  | code06
  | code07
  | code08
  | code09
  | code0A
  | code0B
  | code0C
  | code0D
  | code0E
  | code0F
  | code10
  | code11
  | code12
  | code13
  | code14
  | code15
  | code16
  | code17
  | code18
  | code19
  | code1A
  | code1B
  | code1C
  | code1D
  | code1E
  | code1F
  -- format STIM32
  | reset (capOk playOk : Bool)
  | sample (v : Sample)
  | push (c : Char8)
  | txtick (resp : PlayResp) (drained : Bool)
  | shutdown
  -- format OP
  | opReset (capOk playOk : Bool)
  | rxSample (v : Sample)
  | rxHalt
  | decode (code : Code)
  | hostEnq (text : List Char8)
  | txWake
  | txLoad
  | txSample (resp : PlayResp)
  | txResume
  | txStop (drained : Bool)
  | txHalt
  | opShutdown
  deriving DecidableEq, Repr

/-- One item of the schedule the environment presents to the block: which agent moves next, and with which
input values (R20, R96; log entry 5). -/
inductive Stimulus where
  /-- A 32-bit stimulus word (R98). -/
  | word (w : BitVec 32)
  /-- The capture device puts a sample on `cap_sample`, for a code word to be decoded with (R47, R254; log
  entry 6). -/
  | offer (v : Sample)
  /-- A code word decoded inside the RX_SAMPLE of the offered sample, carried in a byte whose upper three bits are
  zero (R84, R94; log entries 6 and 16). -/
  | code (b : Byte)
  /-- One byte of a byte-serial capture stream (R62, R63; log entry 10). -/
  | byte (b : Byte)
  /-- An operation presented by name: the way to the operations that have no word of their own, such as
  HOST_ENQ of a whole text (R97 PUSHS; log entry 7). -/
  | op (i : Instr)
  deriving DecidableEq, Repr

end Sys2Proof
end

