-- ==== Sys2Proof/WellFormed.lean ====
section
/-! DEFINITION. Which instructions the spec's encodings admit. The operand types carry the widths; what
they do not carry is that `TXTICK` has no form with resp 3 (spec/30_encoding.md R98). -/

namespace Sys2Proof

/-- A response a TXTICK line may carry: ACCEPT, BUSY or STALL, not the reserved value 3 (R96, R98). -/
def PlayResp.isLineOperand : PlayResp → Bool
  | .accept => true
  | .busy => true
  | .stall => true
  | .reserved => false

/-- The operands are ones the instruction's encoding admits (R98). -/
def Instr.wellFormed : Instr → Bool
  | .code00 | .code01 | .code02 | .code03 => true
  | .code04 | .code05 | .code06 | .code07 => true
  | .code08 | .code09 | .code0A | .code0B => true
  | .code0C | .code0D | .code0E | .code0F => true
  | .code10 | .code11 | .code12 | .code13 => true
  | .code14 | .code15 | .code16 | .code17 => true
  | .code18 | .code19 | .code1A | .code1B => true
  | .code1C | .code1D | .code1E | .code1F => true
  | .reset _ _ => true
  | .sample _ => true
  | .push _ => true
  | .txtick resp _ => resp.isLineOperand
  | .shutdown => true
  | .opReset _ _ => true
  | .rxSample _ => true
  | .rxHalt => true
  | .decode _ => true
  | .hostEnq _ => true
  | .txWake => true
  | .txLoad => true
  | .txSample _ => true
  | .txResume => true
  | .txStop _ => true
  | .txHalt => true
  | .opShutdown => true

end Sys2Proof
end

