-- ==== Sys2Proof/Decode.lean ====
section
/-! DEFINITION. The decoder of spec/30_encoding.md R84, R96 and R98, and after it the encoder. -/

namespace Sys2Proof

/-! ## Decoding -/

/-- Why a stimulus is refused; a refused word performs no step (R98, U20). -/
inductive DecodeError where
  /-- The op field `w[31:28]` is one of the reserved values 0x5 to 0xF. -/
  | reservedOp (op : BitVec 4)
  /-- A must-be-zero bit of the named line's word is set. -/
  | mustBeZero (mnemonic : String)
  /-- TXTICK with resp 3. -/
  | reservedResp
  /-- A byte handed over as a code word whose value is no u5 (R84; log entry 16). -/
  | notACodeWord (b : Byte)
  /-- An operation presented by name with an operand its encoding does not admit. -/
  | illFormed
  deriving DecidableEq, Repr

/-- The five lines' words, field by field (R98). -/
def decodeWord (w : BitVec 32) : Except DecodeError Instr :=
  match (w.extractLsb' 28 4).toNat with
  | 0x0 =>
    if w.extractLsb' 2 26 = 0 then .ok (.reset (w.getLsbD 0) (w.getLsbD 1)) else .error (.mustBeZero "RESET")
  | 0x1 => if w.extractLsb' 16 12 = 0 then .ok (.sample (w.extractLsb' 0 16)) else .error (.mustBeZero "SAMPLE")
  | 0x2 => if w.extractLsb' 8 20 = 0 then .ok (.push (w.extractLsb' 0 8)) else .error (.mustBeZero "PUSH")
  | 0x3 =>
    if w.extractLsb' 3 25 = 0 then
      match (w.extractLsb' 0 2).toNat with
      | 0 => .ok (.txtick .accept (w.getLsbD 2))
      | 1 => .ok (.txtick .busy (w.getLsbD 2))
      | 2 => .ok (.txtick .stall (w.getLsbD 2))
      | _ => .error .reservedResp
    else .error (.mustBeZero "TXTICK")
  | 0x4 => if w.extractLsb' 0 28 = 0 then .ok .shutdown else .error (.mustBeZero "SHUTDOWN")
  | _ => .error (.reservedOp (w.extractLsb' 28 4))

/-- The CODE5 rows in the order of their code words (R86). -/
def codeTable : List Instr :=
  [.code00, .code01, .code02, .code03, .code04, .code05, .code06, .code07,
   .code08, .code09, .code0A, .code0B, .code0C, .code0D, .code0E, .code0F,
   .code10, .code11, .code12, .code13, .code14, .code15, .code16, .code17,
   .code18, .code19, .code1A, .code1B, .code1C, .code1D, .code1E, .code1F]

/-- The CODE5 row of a code word. The table has an entry for every u5; the default is never read. -/
def codeInstr (c : Code) : Instr := codeTable.getD c.toNat .code1F

/-- A code word carried in a byte: bits 7 to 5 must be zero, since a code word is `c[4:0]` (R84; log entry 16). -/
def decodeCode (b : Byte) : Except DecodeError Instr :=
  if b.extractLsb' 5 3 = 0 then .ok (codeInstr (b.extractLsb' 0 5)) else .error (.notACodeWord b)

/-- An operation presented by name. -/
def decodeNamed (i : Instr) : Except DecodeError Instr :=
  if i.wellFormed then .ok i else .error .illFormed

/-- Every stimulus but an input of the capture device stands for one instruction, or is refused by name. -/
def decodeStimulus : Stimulus → Option (Except DecodeError Instr)
  | .word w => some (decodeWord w)
  | .offer _ => none
  | .code b => some (decodeCode b)
  | .byte _ => none
  | .op i => some (decodeNamed i)

/-- The stimulus that carries a row of the opcode table whose bits are `w`: a row of at most eight bits is a
code word (format CODE5), a row of at most 32 bits a stimulus word (formats STIM32 and OP). -/
def tableStimulus (nbits w : Nat) : Option Stimulus :=
  if 2 ^ nbits ≤ w then none
  else if nbits ≤ 8 then some (.code (BitVec.ofNat 8 w))
  else if nbits ≤ 32 then some (.word (BitVec.ofNat 32 w))
  else none

/-- What the decoder reads from a row of the opcode table; `none` where it refuses. -/
def decodeTableWord (nbits w : Nat) : Option Instr :=
  match (tableStimulus nbits w).bind decodeStimulus with
  | some (.ok i) => some i
  | some (.error _) => none
  | none => none

/-! ## Encoding -/

/-- The code word a CODE5 row stands for (R84, R86); `none` for a row of another format. -/
def Instr.codeWord? : Instr → Option Code
  | .code00 => some 0x00
  | .code01 => some 0x01
  | .code02 => some 0x02
  | .code03 => some 0x03
  | .code04 => some 0x04
  | .code05 => some 0x05
  | .code06 => some 0x06
  | .code07 => some 0x07
  | .code08 => some 0x08
  | .code09 => some 0x09
  | .code0A => some 0x0A
  | .code0B => some 0x0B
  | .code0C => some 0x0C
  | .code0D => some 0x0D
  | .code0E => some 0x0E
  | .code0F => some 0x0F
  | .code10 => some 0x10
  | .code11 => some 0x11
  | .code12 => some 0x12
  | .code13 => some 0x13
  | .code14 => some 0x14
  | .code15 => some 0x15
  | .code16 => some 0x16
  | .code17 => some 0x17
  | .code18 => some 0x18
  | .code19 => some 0x19
  | .code1A => some 0x1A
  | .code1B => some 0x1B
  | .code1C => some 0x1C
  | .code1D => some 0x1D
  | .code1E => some 0x1E
  | .code1F => some 0x1F
  | .reset _ _ => none
  | .sample _ => none
  | .push _ => none
  | .txtick _ _ => none
  | .shutdown => none
  | .opReset _ _ => none
  | .rxSample _ => none
  | .rxHalt => none
  | .decode _ => none
  | .hostEnq _ => none
  | .txWake => none
  | .txLoad => none
  | .txSample _ => none
  | .txResume => none
  | .txStop _ => none
  | .txHalt => none
  | .opShutdown => none

/-- Is this a line of the stimulus language with a word of its own (format STIM32, R98)? -/
def Instr.isLine : Instr → Bool
  | .code00 => false
  | .code01 => false
  | .code02 => false
  | .code03 => false
  | .code04 => false
  | .code05 => false
  | .code06 => false
  | .code07 => false
  | .code08 => false
  | .code09 => false
  | .code0A => false
  | .code0B => false
  | .code0C => false
  | .code0D => false
  | .code0E => false
  | .code0F => false
  | .code10 => false
  | .code11 => false
  | .code12 => false
  | .code13 => false
  | .code14 => false
  | .code15 => false
  | .code16 => false
  | .code17 => false
  | .code18 => false
  | .code19 => false
  | .code1A => false
  | .code1B => false
  | .code1C => false
  | .code1D => false
  | .code1E => false
  | .code1F => false
  | .reset _ _ => true
  | .sample _ => true
  | .push _ => true
  | .txtick _ _ => true
  | .shutdown => true
  | .opReset _ _ => false
  | .rxSample _ => false
  | .rxHalt => false
  | .decode _ => false
  | .hostEnq _ => false
  | .txWake => false
  | .txLoad => false
  | .txSample _ => false
  | .txResume => false
  | .txStop _ => false
  | .txHalt => false
  | .opShutdown => false

/-- `play_resp` as two bits (R47). -/
def PlayResp.bits : PlayResp → BitVec 2
  | .accept => 0
  | .busy => 1
  | .stall => 2
  | .reserved => 3

/-- One bit of a word. -/
def flagBit (b : Bool) : BitVec 1 := BitVec.ofBool b

/-- The word of RESET (R98). -/
def resetWord (capOk playOk : Bool) : BitVec 32 := 0x0#4 ++ 0#26 ++ flagBit playOk ++ flagBit capOk

/-- The word of SAMPLE (R98). -/
def sampleWord (v : Sample) : BitVec 32 := 0x1#4 ++ 0#12 ++ v

/-- The word of PUSH (R98). -/
def pushWord (c : Char8) : BitVec 32 := 0x2#4 ++ 0#20 ++ c

/-- The word of TXTICK (R98). -/
def txtickWord (resp : PlayResp) (drained : Bool) : BitVec 32 := 0x3#4 ++ 0#25 ++ flagBit drained ++ resp.bits

/-- The word of SHUTDOWN (R98). -/
def shutdownWord : BitVec 32 := 0x4#4 ++ 0#28

/-- The stimulus that presents an instruction: a CODE5 row its code word, a STIM32 row its word. An OP row
has no word of its own (R94) and is presented by name. -/
def encode (i : Instr) : Stimulus :=
  match i with
  | .code00 => .code 0x00
  | .code01 => .code 0x01
  | .code02 => .code 0x02
  | .code03 => .code 0x03
  | .code04 => .code 0x04
  | .code05 => .code 0x05
  | .code06 => .code 0x06
  | .code07 => .code 0x07
  | .code08 => .code 0x08
  | .code09 => .code 0x09
  | .code0A => .code 0x0A
  | .code0B => .code 0x0B
  | .code0C => .code 0x0C
  | .code0D => .code 0x0D
  | .code0E => .code 0x0E
  | .code0F => .code 0x0F
  | .code10 => .code 0x10
  | .code11 => .code 0x11
  | .code12 => .code 0x12
  | .code13 => .code 0x13
  | .code14 => .code 0x14
  | .code15 => .code 0x15
  | .code16 => .code 0x16
  | .code17 => .code 0x17
  | .code18 => .code 0x18
  | .code19 => .code 0x19
  | .code1A => .code 0x1A
  | .code1B => .code 0x1B
  | .code1C => .code 0x1C
  | .code1D => .code 0x1D
  | .code1E => .code 0x1E
  | .code1F => .code 0x1F
  | .reset capOk playOk => .word (resetWord capOk playOk)
  | .sample v => .word (sampleWord v)
  | .push c => .word (pushWord c)
  | .txtick resp drained => .word (txtickWord resp drained)
  | .shutdown => .word shutdownWord
  | .opReset _ _ => .op i
  | .rxSample _ => .op i
  | .rxHalt => .op i
  | .decode _ => .op i
  | .hostEnq _ => .op i
  | .txWake => .op i
  | .txLoad => .op i
  | .txSample _ => .op i
  | .txResume => .op i
  | .txStop _ => .op i
  | .txHalt => .op i
  | .opShutdown => .op i

/-- The stimulus word that can trigger an instruction (R94, R96): a line's own word, an OP row's word of
spec/opcode_table.json with the operation's operands in it. `none` where no operand fixes a word: the CODE5 rows
and DECODE, which the SAMPLE of their sample triggers whatever its value, a text that is not one character (PUSHS,
R97), and a TX_SAMPLE answered with the reserved response. -/
def triggerWord : Instr → Option (BitVec 32)
  | .code00 => none
  | .code01 => none
  | .code02 => none
  | .code03 => none
  | .code04 => none
  | .code05 => none
  | .code06 => none
  | .code07 => none
  | .code08 => none
  | .code09 => none
  | .code0A => none
  | .code0B => none
  | .code0C => none
  | .code0D => none
  | .code0E => none
  | .code0F => none
  | .code10 => none
  | .code11 => none
  | .code12 => none
  | .code13 => none
  | .code14 => none
  | .code15 => none
  | .code16 => none
  | .code17 => none
  | .code18 => none
  | .code19 => none
  | .code1A => none
  | .code1B => none
  | .code1C => none
  | .code1D => none
  | .code1E => none
  | .code1F => none
  | .reset capOk playOk => some (resetWord capOk playOk)
  | .sample v => some (sampleWord v)
  | .push c => some (pushWord c)
  | .txtick resp drained => if resp.isLineOperand then some (txtickWord resp drained) else none
  | .shutdown => some shutdownWord
  | .opReset capOk playOk => some (resetWord capOk playOk)
  | .rxSample v => some (sampleWord v)
  | .rxHalt => some (sampleWord 0)
  | .decode _ => none
  | .hostEnq text =>
    match text with
    | [c] => some (pushWord c)
    | _ => none
  | .txWake => some (txtickWord .accept false)
  | .txLoad => some (txtickWord .accept false)
  | .txSample resp => if resp.isLineOperand then some (txtickWord resp false) else none
  | .txResume => some (txtickWord .accept false)
  | .txStop drained => some (txtickWord .accept drained)
  | .txHalt => some (txtickWord .accept false)
  | .opShutdown => some shutdownWord

end Sys2Proof
end

