-- ==== Sys2Proof/Machine/State.lean ====
section
/-! DEFINITION. The state of the block: the fields of spec/10_state.md R22, one for one, and the five
fields of the model's own that its header names. -/

namespace Sys2Proof.Machine

/-- The shift mode, and the selector of R87: LTRS or FIGS (R11). -/
inductive Shift where
  | ltrs
  | figs
  deriving DecidableEq, Repr

/-- The demodulator's phase (R24). -/
inductive RxPhase where
  | await
  | framing
  deriving DecidableEq, Repr

/-- The capture path's state (R29). -/
inductive RxState where
  | run
  | fault
  | halted
  deriving DecidableEq, Repr

/-- The transmit path's sequencer state (R33). -/
inductive TxState where
  | idle
  | sending
  | draining
  | fault
  | halted
  deriving DecidableEq, Repr

/-- A cause code, u2 (R240). -/
abbrev Cause := BitVec 2

/-- No failure (R240). -/
def causeNone : Cause := 0

/-- CAPTURE_UNAVAILABLE (R240, R241). -/
def causeCapture : Cause := 1

/-- PLAYBACK_UNAVAILABLE (R240, R242). -/
def causePlayback : Cause := 2

/-- PLAYBACK_STALL (R240, R245). -/
def causeStall : Cause := 3

/-- The events of R246. -/
inductive Event where
  | rxChar (c : Char8)
  | sendingChanged (b : Bool)
  | error (code : Cause)
  | sample (v : Sample)
  | framingError (w : Code)
  | skipped (c : Char8)
  deriving DecidableEq, Repr

/-- The histories of one filter instance, newest at index 0 (R23, R110). -/
structure Filter where
  xh : List F64
  yh : List F64
  deriving DecidableEq, Repr

/-- A filter at reset: `n` inputs and `m` outputs of 0.0 (R22, R110). -/
def Filter.reset (n m : Nat) : Filter := ⟨List.replicate n F64.zero, List.replicate m F64.zero⟩

/-- A frame in progress: the code word, the bit cell 0..6 and the samples of that cell already produced
(R38). -/
structure TxFrame where
  code : Code
  cell : Fin 7
  smp : Nat
  deriving DecidableEq, Repr

/-- The machine's state. The fields down to `trace` are R22's table; the last five are the model's own. -/
structure State where
  /-- `S.bpf_mark`. -/
  bpfMark : Filter
  /-- `S.bpf_space`. -/
  bpfSpace : Filter
  /-- `S.lpf_mark`. -/
  lpfMark : Filter
  /-- `S.lpf_space`. -/
  lpfSpace : Filter
  /-- `S.rx_phase` (R24). -/
  rxPhase : RxPhase
  /-- `S.rx_timer`, samples to the next bit decision (R25). -/
  rxTimer : Nat
  /-- `S.rx_bitidx` (R26). -/
  rxBitidx : Nat
  /-- `S.rx_word` (R27). -/
  rxWord : Code
  /-- `S.rx_shift` (R28). -/
  rxShift : Shift
  /-- `S.rx_state` (R29). -/
  rxState : RxState
  /-- `S.rx_block_pos` (R30). -/
  rxBlockPos : Nat
  /-- `S.suppress` (R31). -/
  suppress : Bool
  /-- `S.guard_armed` (R32). -/
  guardArmed : Bool
  /-- `S.guard_count` (R32). -/
  guardCount : Nat
  /-- `S.tx_state` (R33). -/
  txState : TxState
  /-- `S.tx_shift` (R34). -/
  txShift : Shift
  /-- `S.sending`, also the output level `sending` (R35, R47). -/
  sending : Bool
  /-- `S.phi` (R36). -/
  phi : F64
  /-- `S.tx_pending` (R37). -/
  txPending : List Code
  /-- `S.tx_frame` (R38). -/
  txFrame : Option TxFrame
  /-- `S.queue` (R39). -/
  queue : List Char8
  /-- `S.cap_cause` (R40). -/
  capCause : Cause
  /-- `S.play_cause` (R40). -/
  playCause : Cause
  /-- `S.shutdown_req` (R41). -/
  shutdownReq : Bool
  /-- `S.trace`, oldest event first (R42). -/
  trace : List Event
  /-- The model's: the output port `host_accept`, as last driven (R47; log entry 9). -/
  hostAccept : Bool
  /-- The model's: the output port `play_sample`, as last driven (R47; log entry 9). -/
  playSample : Sample
  /-- The model's: the held trailing byte of a byte-serial capture stream (R63; log entry 10). -/
  capHeld : Option Byte
  /-- The model's: the sample present on the input port `cap_sample` that no step has taken yet (R47, R94; log entry 6). -/
  capSample : Option Sample
  /-- The model's: the schedule still to come, the free choices of the environment (log entry 5). -/
  stim : List Stimulus
  deriving DecidableEq, Repr

/-- Why the machine stops with a fault: never. The spec's faults put one PATH in FAULT and the block goes on
(R243, R250), so they are next states; no step of the block stops the machine. -/
inductive Fault where
  deriving DecidableEq, Repr

/-- Why a step is refused. Each is safe: the model stops where the spec gives no step. -/
inductive Refusal where
  /-- The arm of an instruction without a meaning, raised by `exec`. No arm is one. Safe. -/
  | notModelled (mnemonic : String)
  /-- An operation presented by name whose enabling condition of R94 is false: "that step does not exist in
  the current state" (R10). Raised by the meanings of the OP rows. Safe. -/
  | notEnabled (mnemonic : String)
  /-- A stimulus the decoder refuses by name (R98, U20). Raised by `step`. Safe. -/
  | undecodable (e : DecodeError)
  /-- RESET with a configuration outside the legal range: it has no reset state and no steps (R115, U21).
  Raised by the meanings of the two RESET rows; the hardware's own configuration is legal. Safe. -/
  | illegalConfiguration
  deriving DecidableEq, Repr

/-- What a meaning answers. -/
abbrev Result := Host.Outcome State Fault Refusal

/-- The state right after `RESET 1, 1`: R22's reset column, both devices available (R270; log entry 11). The
last five fields are the model's own (log entries 5, 6, 9 and 10). -/
def State.reset : State where
  bpfMark := Filter.reset 3 2
  bpfSpace := Filter.reset 3 2
  lpfMark := Filter.reset 1 1
  lpfSpace := Filter.reset 1 1
  rxPhase := .await
  rxTimer := 0
  rxBitidx := 0
  rxWord := 0
  rxShift := .ltrs
  rxState := .run
  rxBlockPos := 0
  suppress := false
  guardArmed := false
  guardCount := 0
  txState := .idle
  txShift := .ltrs
  sending := false
  phi := F64.zero
  txPending := []
  txFrame := none
  queue := []
  capCause := causeNone
  playCause := causeNone
  shutdownReq := false
  trace := []
  hostAccept := true
  playSample := 0
  capHeld := none
  capSample := none
  stim := []

end Sys2Proof.Machine
end

