-- ==== Sys2Proof/Machine/Codebook.lean ====
section
/-! DEFINITION. The code tables and their two read primitives (spec/20_memory.md R61, spec/30_encoding.md R84
to R88). -/

namespace Sys2Proof.Machine

open Config (Params)

/-- The reserved code word FIGS, "switch to figures" (R84). -/
def figsCode : Code := 0x1B

/-- The reserved code word LTRS, "switch to letters" (R84). -/
def ltrsCode : Code := 0x1F

/-- The LTRS column of R86. The entries at 0x1B and 0x1F are never read (R85b). -/
def lettersTable : List Char8 :=
  [
   0x20, 0x45, 0x0A, 0x41, 0x20, 0x53, 0x49, 0x55,
   0x0D, 0x44, 0x52, 0x4A, 0x4E, 0x46, 0x43, 0x4B,
   0x54, 0x5A, 0x4C, 0x57, 0x48, 0x59, 0x50, 0x51,
   0x4F, 0x42, 0x47, 0x00, 0x4D, 0x58, 0x56, 0x00]

/-- The FIGS column of R86. -/
def figuresTable : List Char8 :=
  [
   0x20, 0x33, 0x0A, 0x2D, 0x20, 0x07, 0x38, 0x37,
   0x0D, 0x24, 0x34, 0x27, 0x2C, 0x21, 0x3A, 0x28,
   0x35, 0x22, 0x29, 0x32, 0x23, 0x36, 0x30, 0x31,
   0x39, 0x3F, 0x26, 0x00, 0x2E, 0x2F, 0x3B, 0x00]

/-- The forward table of a shift mode. -/
def forwardTable (p : Params) : Shift → List Char8
  | .ltrs => p.letters
  | .figs => p.figures

/-- `Fwd(mode, code)` of R61. A legal table has 32 entries (R85a), so the default is never read. -/
def fwd (p : Params) (mode : Shift) (code : Code) : Char8 := (forwardTable p mode).getD code.toNat 0

/-- The codes R88 may choose from, lowest first: 0x01 to 0x1E without 0x1B. -/
def canonicalCodes : List Code := ((List.range 0x1E).map (fun k => BitVec.ofNat 5 (k + 1))).filter (· != figsCode)

/-- The lowest canonical code that decodes to `c` in a mode. -/
def lowestCode (p : Params) (mode : Shift) (c : Char8) : Option Code :=
  canonicalCodes.find? (fun k => fwd p mode k == c)

/-- `Rev(c)` of R88: the lowest code of the LTRS table, else the lowest of the FIGS table, else none. -/
def rev (p : Params) (c : Char8) : Option (Code × Shift) :=
  match lowestCode p .ltrs c with
  | some k => some (k, .ltrs)
  | none => (lowestCode p .figs c).map (fun k => (k, .figs))

end Sys2Proof.Machine
end

