-- ==== Sys2Proof/Machine/Float.lean ====
section
/-! DEFINITION. IEEE 754 binary64 arithmetic, round to nearest even (spec/00_scope.md R12).

A finite value is an exact multiple of 2^-1074, so its magnitude is held as one natural number of that unit.
An operation computes the exact result on such numbers and rounds it once. -/

namespace Sys2Proof.F64

/-! ## Exact values -/

/-- The unit of magnitude is 2^-1074, the least positive binary64 value. -/
def unitBits : Nat := 1074

/-- The magnitude of a finite value with these fields, in units of 2^-1074. -/
def magOf (expo : Fin 2047) (frac : BitVec 52) : Nat :=
  if expo.val = 0 then frac.toNat else (2 ^ 52 + frac.toNat) * 2 ^ (expo.val - 1)

/-- A signed integer from a sign and a magnitude. -/
def signed (neg : Bool) (mag : Nat) : Int := if neg then -(mag : Int) else mag

/-- The exact value of a finite number in units of 2^-1074; `none` for an infinity or a NaN. -/
def units? : F64 → Option Int
  | .nan => none
  | .inf _ => none
  | .num s e f => some (signed s (magOf e f))

/-! ## Rounding -/

/-- The magnitude field (exponent and fraction as one number) of the binary64 value nearest to
`n * 2^-(1074 + d)`, ties to even. Consecutive values have consecutive fields, so a carry out of the fraction
moves into the exponent by itself; an overflow gives a field of 2047 * 2^52 or more. -/
def roundMag (n d : Nat) : Nat :=
  let shift := max (Nat.log2 n - 52) d
  let kept := n >>> shift
  let dropped := n % 2 ^ shift
  let up := if 2 ^ shift < 2 * dropped || (2 ^ shift == 2 * dropped && kept % 2 == 1) then 1 else 0
  (shift - d) * 2 ^ 52 + (kept + up)

/-- The value with a sign and a magnitude field; beyond the largest finite field, an infinity. -/
def ofField (neg : Bool) (field : Nat) : F64 :=
  if h : field < 2047 * 2 ^ 52 then
    .num neg ⟨field / 2 ^ 52, by omega⟩ (BitVec.ofNat 52 field)
  else .inf neg

/-- The binary64 value nearest to `± n * 2^-(1074 + d)`. -/
def roundTo (neg : Bool) (n d : Nat) : F64 := ofField neg (roundMag n d)

/-- `real(n)` of R12: the binary64 value of an integer, exact when `|n| < 2^53`. -/
def real (n : Int) : F64 := roundTo (n < 0) (n.natAbs * 2 ^ unitBits) 0

/-- The value written in hexadecimal as `± 0x1.<frac>p<e>`, the spec's notation for a normal number. -/
def hex (neg : Bool) (frac : BitVec 52) (e : Int) : F64 :=
  ofField neg ((e + 1023).toNat * 2 ^ 52 + frac.toNat)

/-- The value whose 64-bit interchange format is `b` (sign, exponent field, fraction). -/
def ofBits (b : BitVec 64) : F64 :=
  if b.toNat % 2 ^ 63 ≤ 2047 * 2 ^ 52 then ofField (b.getLsbD 63) (b.toNat % 2 ^ 63) else .nan

/-! ## The primitives of R12 -/

/-- Unary `-`. -/
def neg : F64 → F64
  | .nan => .nan
  | .inf s => .inf (!s)
  | .num s e f => .num (!s) e f

/-- `fabs`: clears the sign. -/
def abs : F64 → F64
  | .nan => .nan
  | .inf _ => .inf false
  | .num _ e f => .num false e f

/-- `+`. An exact zero sum is `+0.0` unless both addends are `-0.0`. -/
def add (a b : F64) : F64 :=
  match a, b with
  | .nan, _ => .nan
  | _, .nan => .nan
  | .inf s, .inf t => if s = t then .inf s else .nan
  | .inf s, .num _ _ _ => .inf s
  | .num _ _ _, .inf t => .inf t
  | .num s e f, .num t g h =>
    let sum := signed s (magOf e f) + signed t (magOf g h)
    if sum = 0 then .num (s && t) 0 0 else roundTo (sum < 0) sum.natAbs 0

/-- Binary `-`. -/
def sub (a b : F64) : F64 := add a (neg b)

/-- Is this a zero? -/
def isZero : F64 → Bool
  | .nan => false
  | .inf _ => false
  | .num _ e f => e == 0 && f == 0

/-- `*`. -/
def mul (a b : F64) : F64 :=
  match a, b with
  | .nan, _ => .nan
  | _, .nan => .nan
  | .inf s, .inf t => .inf (s ^^ t)
  | .inf s, .num t g h => if isZero (.num t g h) then .nan else .inf (s ^^ t)
  | .num s e f, .inf t => if isZero (.num s e f) then .nan else .inf (s ^^ t)
  | .num s e f, .num t g h => roundTo (s ^^ t) (magOf e f * magOf g h) unitBits

/-- The quotient `a / b` of two magnitudes in units of 2^-(1074 + 64), with the last bit set when the
division is not exact: the bits below the rounding position decide the rounding as the exact quotient does. -/
def quotient (a b : Nat) : Nat :=
  let q := (a * 2 ^ (unitBits + 63)) / b
  let r := (a * 2 ^ (unitBits + 63)) % b
  2 * q + (if r = 0 then 0 else 1)

/-- `/`. -/
def div (a b : F64) : F64 :=
  match a, b with
  | .nan, _ => .nan
  | _, .nan => .nan
  | .inf _, .inf _ => .nan
  | .inf s, .num t _ _ => .inf (s ^^ t)
  | .num s _ _, .inf t => .num (s ^^ t) 0 0
  | .num s e f, .num t g h =>
    if isZero (.num t g h) then (if isZero (.num s e f) then .nan else .inf (s ^^ t))
    else roundTo (s ^^ t) (quotient (magOf e f) (magOf g h)) 64

/-- The value's place in the order of the extended reals, an infinity beyond every finite value; `none` for
a NaN, which is ordered with nothing. -/
def orderKey : F64 → Option Int
  | .nan => none
  | .inf s => some (signed s (2 ^ 2098))
  | .num s e f => some (signed s (magOf e f))

/-- `<`, false when an operand is a NaN. -/
def lt (a b : F64) : Bool :=
  match orderKey a, orderKey b with
  | some x, some y => decide (x < y)
  | _, _ => false

/-- `>`. -/
def gt (a b : F64) : Bool := lt b a

/-- `>=`, false when an operand is a NaN. -/
def ge (a b : F64) : Bool :=
  match orderKey a, orderKey b with
  | some x, some y => decide (y ≤ x)
  | _, _ => false

/-- `trunc16(v)`: toward zero, for `|v| <= 32767.0`. Outside it the spec states no result, and the value is
free (R14; log entry 3). -/
def trunc16 (v : F64) : Sample :=
  match v with
  | .nan => Config.trunc16Open v
  | .inf _ => Config.trunc16Open v
  | .num s e f =>
    if magOf e f ≤ 32767 * 2 ^ unitBits then BitVec.ofInt 16 (signed s (magOf e f / 2 ^ unitBits))
    else Config.trunc16Open v

end Sys2Proof.F64
end

