-- ==== Sys2Proof/Machine/Transcendental.lean ====
section
/-! DEFINITION. `sin`, `cos` and `exp`, correctly rounded to binary64: the default of P_TRANSCENDENTALS
(spec/00_scope.md R13).

Each is computed in fixed point to far more bits than the rounding needs, with a bound on the error. The two
ends of the error interval are rounded; when they round alike, that is the correctly rounded value, and when
they do not, which of the two it is is left free (log entry 4). -/

namespace Sys2Proof.Trans

/-- Fraction bits of the fixed-point values. -/
def prec : Nat := 1400

/-- Fraction bits of `piFixed`. -/
def piPrec : Nat := 2560

/-- `floor(pi * 2^2560)`. -/
def piFixed : Nat :=
  0x3243f6a8885a308d313198a2e03707344a4093822299f31d0082efa98ec4e6c89452821e638d01377be5466cf34e90c6cc0ac29b7c97c50dd3f84d5b5b54709179216d5d98979fb1bd1310ba698dfb5ac2ffd72dbd01adfb7b8e1afed6a267e96ba7c9045f12c7f9924a19947b3916cf70801f2e2858efc16636920d871574e69a458fea3f4933d7e0d95748f728eb658718bcd5882154aee7b54a41dc25a59b59c30d5392af26013c5d1b023286085f0ca417918b8db38ef8e79dcb0603a180e6c9e0e8bb01e8a3ed71577c1bd314b2778af2fda55605c60e65525f3aa55ab945748986263e8144055ca396a2aab10b6b4cc5c341141e8cea15486af7c72e993b3ee1411636fbc2a2ba9c55d741831f6ce5c3e169b87931eafd6ba336c24cf5c7a325381289586773b8f48986b4bb9afc4bfe81b6628219361d809ccfb21a991

/-- The bound on the error of the fixed-point sums, in units of 2^-1400: each of fewer than 512 terms is cut
by less than one unit and carries the cuts before it. -/
def errBound : Nat := 2 ^ 12

/-! ## Series -/

/-- The terms of an alternating series from `term` on, `plus - minus`: each term is the one before times
`x2 / (k (k + 1))`, with `k` growing by 2. -/
def alternating (x2 : Nat) : Nat → Nat → Nat → Int
  | 0, _, _ => 0
  | fuel + 1, k, term =>
    if term = 0 then 0 else (term : Int) - alternating x2 fuel (k + 2) (term * x2 / 2 ^ prec / (k * (k + 1)))

/-- `sin(x / 2^1400) * 2^1400`, for `x` at most about 2 * 2^1400. -/
def sinFixed (x : Nat) : Int := alternating (x * x / 2 ^ prec) 256 2 x

/-- `cos(x / 2^1400) * 2^1400`, for `x` at most about 2 * 2^1400. -/
def cosFixed (x : Nat) : Int := alternating (x * x / 2 ^ prec) 256 1 (2 ^ prec)

/-- Fraction bits of the exponential's series: twelve halvings of the operand are the twelve more bits. -/
def expPrec : Nat := prec + 12

/-- The terms of the exponential series from `term` on; each is the one before times `y / k`. -/
def expSeries (y : Nat) : Nat → Nat → Nat → Nat
  | 0, _, _ => 0
  | fuel + 1, k, term => if term = 0 then 0 else term + expSeries y fuel (k + 1) (term * y / 2 ^ expPrec / k)

/-- `n` squarings of a fixed-point value. -/
def squarings : Nat → Nat → Nat
  | 0, x => x
  | n + 1, x => squarings n (x * x / 2 ^ expPrec)

/-- `exp(x / 2^1400) * 2^1412`: the operand is divided by 4096 and the result squared twelve times. -/
def expFixed (x : Nat) : Nat := squarings 12 (expSeries x 512 1 (2 ^ expPrec))

/-! ## Reduction and rounding -/

/-- The quadrant (0 to 3) of a magnitude in units of 2^-1074, and its distance above the quadrant's start,
in units of 2^-1400. -/
def quadrant (mag : Nat) : Nat × Nat :=
  let x2 := mag * 2 ^ (piPrec - F64.unitBits + 1)
  let n := x2 / piFixed
  (n % 4, (x2 - n * piFixed) / 2 ^ (piPrec - prec + 1))

/-- The binary64 value nearest to a number of sign `neg` whose magnitude lies between `lo` and `hi` in units of
2^-(1074 + d): decided when both ends round alike, else the end that the free choice `up` names. -/
def settle (up neg : Bool) (lo hi d : Nat) : F64 :=
  if F64.roundMag lo d = F64.roundMag hi d then F64.roundTo neg lo d
  else F64.roundTo neg (if up then hi else lo) d

/-- Round a sine or cosine of value `v` (units of 2^-1400, error below `errBound`). Its magnitude is at most 1. -/
def settleUnit (up neg : Bool) (v : Int) : F64 :=
  settle up (neg ^^ decide (v < 0)) (min (v.natAbs - errBound) (2 ^ prec)) (min (v.natAbs + errBound) (2 ^ prec))
    (prec - F64.unitBits)

/-- Sine of `± mag`, by quadrant: sin r, cos r, -sin r, -cos r. -/
def sinMag (up neg : Bool) (mag : Nat) : F64 :=
  match quadrant mag with
  | (0, r) => settleUnit up neg (sinFixed r)
  | (1, r) => settleUnit up neg (cosFixed r)
  | (2, r) => settleUnit up (!neg) (sinFixed r)
  | (_, r) => settleUnit up (!neg) (cosFixed r)

/-- Cosine of `mag`, by quadrant: cos r, -sin r, -cos r, sin r. -/
def cosMag (up : Bool) (mag : Nat) : F64 :=
  match quadrant mag with
  | (0, r) => settleUnit up false (cosFixed r)
  | (1, r) => settleUnit up true (sinFixed r)
  | (2, r) => settleUnit up true (cosFixed r)
  | (_, r) => settleUnit up false (sinFixed r)

/-- Operands beyond `± 1100` overflow to infinity or underflow to zero. -/
def expLimit : Nat := 1100 * 2 ^ F64.unitBits

/-- Exponential of `± mag`. A negative operand takes the reciprocal of the exponential of its magnitude. The
relative error is below 2^-1380 for the exponential; the interval allows 2^-300, and two units. -/
def expMag (up neg : Bool) (mag : Nat) : F64 :=
  if expLimit < mag then (if neg then F64.zero else .inf false)
  else
    let e := expFixed (mag * 2 ^ (prec - F64.unitBits))
    let v := if neg then 2 ^ (2 * expPrec) / e else e
    settle up false (v - v / 2 ^ 300 - 2) (v + v / 2 ^ 300 + 2) (expPrec - F64.unitBits)

/-! ## The functions of R13 -/

/-- `sin(v)`, correctly rounded. -/
def sin (v : F64) : F64 :=
  match v with
  | .nan => Config.sinOpen v
  | .inf _ => Config.sinOpen v
  | .num s e f => sinMag (Config.sinRoundsUp v) s (F64.magOf e f)

/-- `cos(v)`, correctly rounded. -/
def cos (v : F64) : F64 :=
  match v with
  | .nan => Config.cosOpen v
  | .inf _ => Config.cosOpen v
  | .num _ e f => cosMag (Config.cosRoundsUp v) (F64.magOf e f)

/-- `exp(v)`, correctly rounded. -/
def exp (v : F64) : F64 :=
  match v with
  | .nan => Config.expOpen v
  | .inf _ => Config.expOpen v
  | .num s e f => expMag (Config.expRoundsUp v) s (F64.magOf e f)

end Sys2Proof.Trans
end

