-- ==== Sys2Proof/Machine/Design.lean ====
section
/-! DEFINITION. The configuration: the design procedures of spec/40_filter.md R112 to R115, the phase
increments of spec/43_modulator.md R190, DESIGN (spec/70_reset_and_hazards.md R271), and the hardware's own
configuration, the default column of spec/00_scope.md R6. -/

namespace Sys2Proof.Machine

open Config (Params Coeffs Design Cfg)

/-- `P_FS` as a binary64 value. -/
def fs : F64 := F64.real Config.sampleRate

/-- 1.0. -/
def one : F64 := F64.real 1

/-- 2.0. -/
def two : F64 := F64.real 2

/-- 3.0. -/
def three : F64 := F64.real 3

/-- DESIGN_BPF(fc, bw), operation by operation (R112). -/
def designBpf (p : Params) (fc bw : F64) : Coeffs :=
  let f := fc.div fs
  let nbw := bw.div fs
  let r := one.sub (three.mul nbw)
  let c := p.cos ((two.mul Config.pi).mul f)
  let k := ((one.sub ((two.mul r).mul c)).add (r.mul r)).div (two.sub (two.mul c))
  { a := [one.sub k, (two.mul (k.sub r)).mul c, (r.mul r).sub k]
    b := [(two.mul r).mul c, (r.mul r).neg] }

/-- DESIGN_LPF(fc), operation by operation (R113). -/
def designLpf (p : Params) (fc : F64) : Coeffs :=
  let d := p.exp (((two.neg.mul Config.pi).mul fc).div fs)
  { a := [one.sub d], b := [d] }

/-- The phase advance per sample of a tone (R190). -/
def phaseIncrement (hz : F64) : F64 := (Config.twoPi.mul hz).div fs

/-- DESIGN() of R271 with the four instances of R114. -/
def design (p : Params) : Design where
  bpfMark := designBpf p Config.markHz p.bandwidth
  bpfSpace := designBpf p Config.spaceHz p.bandwidth
  lpfMark := designLpf p p.cutoff
  lpfSpace := designLpf p p.cutoff
  incMark := phaseIncrement Config.markHz
  incSpace := phaseIncrement Config.spaceHz

/-- `0 < v < P_FS / n`, in exact arithmetic. -/
def withinRate (v : F64) (n : Nat) : Bool :=
  match F64.units? v with
  | some u => decide (0 < u) && decide (n * u < Config.sampleRate * 2 ^ F64.unitBits)
  | none => false

/-- Is the configuration accepted before reset? R115's three conditions, and the legal ranges of R6 and R85
that a record can be asked for. -/
def legal (p : Params) : Bool :=
  withinRate Config.markHz 2 && withinRate Config.spaceHz 2 && withinRate p.bandwidth 3 &&
  withinRate p.cutoff 2 && p.startThreshold.ge F64.zero && decide (1 ≤ p.captureBlock) &&
  p.queueDepth != some 0 && p.letters.length == 32 && p.figures.length == 32

/-- The default column of R6: the values this hardware takes. -/
def hwParams : Params where
  bandwidth := F64.real 100
  cutoff := F64.real 50
  startThreshold := F64.real 2000
  captureBlock := 2048
  guardSamples := 4096
  queueDepth := none
  letters := lettersTable
  figures := figuresTable
  hasShutdown := true
  sin := Trans.sin
  cos := Trans.cos
  exp := Trans.exp

/-- R116's table and R190's values: what DESIGN computes from the defaults. -/
def hwDesign : Design where
  bpfMark :=
    { a := [F64.hex false 0x28a696702f540 (-5), F64.hex false 0x328359b6ba584 (-10), F64.hex true 0x323ab13de5260 (-5)]
      b := [F64.hex false 0xbf73fa33f15ae (-1), F64.hex true 0xda51eb851eb86 (-1)] }
  bpfSpace :=
    { a := [F64.hex false 0x2c5f30f0cfd30 (-5), F64.hex false 0x1172e63a69e54 (-12), F64.hex true 0x2e8216bd44a70 (-5)]
      b := [F64.hex false 0x345d160920389 (-2), F64.hex true 0xda51eb851eb86 (-1)] }
  lpfMark := { a := [F64.hex false 0x3b76e42850a60 (-5)], b := [F64.hex false 0xec4891bd7af5a (-1)] }
  lpfSpace := { a := [F64.hex false 0x3b76e42850a60 (-5)], b := [F64.hex false 0xec4891bd7af5a (-1)] }
  incMark := F64.hex false 0x197c987c952c4 0
  incSpace := F64.hex false 0x69e9565708efc 0

/-- The hardware's configuration (log entry 1). -/
def hw : Cfg where
  params := hwParams
  design := hwDesign

/-- The configuration RESET would compute from other parameters (R6, R271). -/
def configure (p : Params) : Cfg where
  params := p
  design := design p

end Sys2Proof.Machine
end

