-- ==== Sys2Proof/Machine/Operands.lean ====
section
/-! DEFINITION. How operands enter and leave the block: PCM byte order (spec/20_memory.md R62, R63), the
sample conversion of R130, the playback answer (R245), the cells of a frame (R81, R189), and the queue
primitives of R64. -/

namespace Sys2Proof.Machine

open Config (Cfg)

/-! ## PCM -/

/-- `real(cap_sample)`: the sample's signed value, unscaled (R130). -/
def sampleValue (v : Sample) : F64 := F64.real v.toInt

/-- Byte 0 of a sample, sent first: `bits[15:8]` (R62). -/
def highByte (v : Sample) : Byte := v.extractLsb' 8 8

/-- Byte 1 of a sample: `bits[7:0]` (R62). -/
def lowByte (v : Sample) : Byte := v.extractLsb' 0 8

/-- The sample two consecutive bytes form, the first the more significant (R62). -/
def sampleOfBytes (byte0 byte1 : Byte) : Sample := byte0 ++ byte1

/-- A byte stream, aligned from its start: its samples, and the held trailing byte (R63). -/
def samplesOfBytes : List Byte → List Sample × Option Byte
  | [] => ([], none)
  | [b] => ([], some b)
  | b0 :: b1 :: rest =>
    let more := samplesOfBytes rest
    (sampleOfBytes b0 b1 :: more.1, more.2)

/-- Samples as a big-endian byte stream (R62). -/
def bytesOfSamples (vs : List Sample) : List Byte := vs.flatMap (fun v => [highByte v, lowByte v])

/-- The samples the playback device has taken, oldest first (R246 `Sample(v)`). -/
def playedSamples (trace : List Event) : List Sample :=
  trace.filterMap (fun e => match e with | .sample v => some v | _ => none)

/-! ## The playback answer -/

/-- The answer as the block takes it: the reserved value 3 is BUSY (R47, R93f). -/
def effectiveResp : PlayResp → PlayResp
  | .accept => .accept
  | .busy => .busy
  | .stall => .stall
  | .reserved => .busy

/-- The answers on which TX_SAMPLE is enabled, ACCEPT and STALL (R94, R186). -/
def answersSample (resp : PlayResp) : Bool := effectiveResp resp == .accept || effectiveResp resp == .stall

/-! ## Frames -/

/-- CELL_BIT(code, bit): the start cell is space, cells 1 to 5 the data bits, least significant first, and the
stop cell mark (R189). -/
def cellBit (code : Code) (cell : Fin 7) : Bool :=
  if cell.val = 0 then false else if cell.val ≤ 5 then code.getLsbD (cell.val - 1) else true

/-- The seven cells of a frame in sending order (R81). -/
def frameCells (code : Code) : List Bool := (List.finRange 7).map (cellBit code)

/-- The reserved code word that switches to a shift mode (R84). -/
def shiftCode : Shift → Code
  | .figs => figsCode
  | .ltrs => ltrsCode

/-- The phase increment of a bit value: 1 is mark, 0 is space (R82, R191). -/
def toneIncrement (c : Cfg) (mark : Bool) : F64 := if mark then c.design.incMark else c.design.incSpace

/-! ## The queue (R64) -/

/-- `Push(q, c)`. -/
def pushChar (q : List Char8) (c : Char8) : List Char8 := q ++ [c]

/-- HOST_ENQ's loop: the characters of a text pushed in order (R180). -/
def pushText (q : List Char8) (text : List Char8) : List Char8 := text.foldl pushChar q

/-- `Pop(q)` with `Head(q)`; none when the queue is empty. -/
def popChar : List Char8 → Option (Char8 × List Char8)
  | [] => none
  | c :: rest => some (c, rest)

/-- Does a whole text fit (R180)? -/
def hasRoom (c : Cfg) (q text : List Char8) : Bool :=
  match c.params.queueDepth with
  | none => true
  | some depth => decide (q.length + text.length ≤ depth)

end Sys2Proof.Machine
end

