-- ==== Sys2Proof/Machine/Flags.lean ====
section
/-! DEFINITION. Every condition the block computes: the tone decision and the start condition
(spec/41_tone_detector.md R134, R135), and the enabling conditions of spec/30_encoding.md R94. -/

namespace Sys2Proof.Machine

open Config (Cfg)

/-- MARK(nrz): the sampled bit is mark if and only if `nrz > 0.0` (R134). -/
def isMark (nrz : F64) : Bool := nrz.gt F64.zero

/-- START(nrz): `nrz < -P_START_THRESHOLD`, strict and signed (R135). -/
def isStart (c : Cfg) (nrz : F64) : Bool := nrz.lt c.params.startThreshold.neg

/-! ## RX -/

/-- RX_SAMPLE, a captured sample being present (R94, R150). -/
def rxSampleEnabled (s : State) : Bool := s.rxState == .run && !(s.shutdownReq && s.rxBlockPos == 0)

/-- RX_HALT (R94, R262). -/
def rxHaltEnabled (s : State) : Bool := s.rxState == .run && s.shutdownReq && s.rxBlockPos == 0

/-! ## HOST and the platform -/

/-- HOST_ENQ(text): the queue has room for the whole text (R94, R180). -/
def hostEnqEnabled (c : Cfg) (text : List Char8) (s : State) : Bool := hasRoom c s.queue text

/-- SHUTDOWN: the input exists (R94, R261). -/
def shutdownEnabled (c : Cfg) : Bool := c.params.hasShutdown

/-- RESET: always, for an accepted configuration (R94, R115, R270). -/
def resetEnabled (c : Cfg) : Bool := legal c.params

/-! ## TX -/

/-- TX_WAKE (R94, R181). -/
def txWakeEnabled (s : State) : Bool := s.txState == .idle && !s.shutdownReq && !s.queue.isEmpty

/-- TX_LOAD (R94, R182). -/
def txLoadEnabled (s : State) : Bool := s.txState == .sending && s.txFrame == none && !s.shutdownReq

/-- TX_SAMPLE with an answer (R94, R186). -/
def txSampleEnabled (resp : PlayResp) (s : State) : Bool :=
  s.txState == .sending && s.txFrame != none && answersSample resp

/-- TX_RESUME (R94, R187). -/
def txResumeEnabled (s : State) : Bool := s.txState == .draining && !s.shutdownReq && !s.queue.isEmpty

/-- TX_STOP with the drained indication (R94, R188). -/
def txStopEnabled (drained : Bool) (s : State) : Bool :=
  s.txState == .draining && !s.shutdownReq && s.queue.isEmpty && drained

/-- TX at a frame boundary, as R94 and R263 spell it. -/
def txAtBoundary (s : State) : Bool :=
  s.txState == .idle || s.txState == .draining || (s.txState == .sending && s.txFrame == none)

/-- TX_HALT (R94, R263). -/
def txHaltEnabled (s : State) : Bool := s.shutdownReq && txAtBoundary s

/-- The operations of agent TX (R94). -/
inductive TxOp where
  | wake
  | load
  | sample
  | resume
  | stop
  | halt
  deriving DecidableEq, Repr

/-- All of them. -/
def txOps : List TxOp := [.wake, .load, .sample, .resume, .stop, .halt]

/-- The enabling condition of a TX operation under the inputs of a tick (R94). -/
def txEnabled (resp : PlayResp) (drained : Bool) (s : State) : TxOp → Bool
  | .wake => txWakeEnabled s
  | .load => txLoadEnabled s
  | .sample => txSampleEnabled resp s
  | .resume => txResumeEnabled s
  | .stop => txStopEnabled drained s
  | .halt => txHaltEnabled s

/-- The one enabled TX operation of R95, or none. -/
def txChoice (resp : PlayResp) (drained : Bool) (s : State) : Option TxOp :=
  txOps.find? (txEnabled resp drained s)

end Sys2Proof.Machine
end

