-- ==== Sys2Proof/Machine/Ops.lean ====
section
/-! DEFINITION. The shared operations on the state, each the pseudocode of the rule it cites. Raising a fault
(spec/60_exceptions.md R243, R244) is the exception entry of the block; there is no return from one (R250):
FAULT is left only by `resetBlock`. -/

namespace Sys2Proof.Machine

open Config (Cfg Coeffs)

/-! ## Events -/

/-- `Emit(event)` (R9, R246). -/
def emit (e : Event) (s : State) : State := { s with trace := s.trace ++ [e] }

/-! ## The coordinator (spec/44_coordinator.md) -/

/-- COORD_START: cancel any pending guard, then suppress (R221). -/
def coordStart (s : State) : State := { s with guardArmed := false, guardCount := 0, suppress := true }

/-- COORD_STOP: clear at once, or schedule the clear (R222, R224). -/
def coordStop (c : Cfg) (s : State) : State :=
  if c.params.guardSamples = 0 then { s with suppress := false }
  else { s with guardArmed := true, guardCount := c.params.guardSamples }

/-- COORD_TICK: the guard countdown (R223). A guard armed with count 0, which no run reaches, expires
(log entry 12). -/
def coordTick (s : State) : State :=
  if s.guardArmed then
    if s.guardCount - 1 = 0 then { s with guardCount := 0, guardArmed := false, suppress := false }
    else { s with guardCount := s.guardCount - 1 }
  else s

/-! ## Faults and leaving service (spec/60_exceptions.md) -/

/-- Stop notification and coordinator stop of a transmit path that was sending (R244). -/
def stopSending (c : Cfg) (s : State) : State :=
  coordStop c (emit (.sendingChanged false) { s with sending := false })

/-- LEAVE_SERVICE(final) (R244). -/
def leaveService (c : Cfg) (final : TxState) (s : State) : State :=
  let dropped := { s with txFrame := none, txPending := [] }
  let stopped := if s.sending then stopSending c dropped else dropped
  { stopped with txState := final }

/-- TX_FAULT(code) (R244). -/
def txFault (c : Cfg) (code : Cause) (s : State) : State :=
  leaveService c .fault (emit (.error code) { s with playCause := code })

/-- `raise Fault(cause)`: cause 1 faults the capture path, causes 2 and 3 the transmit path (R243). -/
def raiseFault (c : Cfg) (cause : Cause) (s : State) : State :=
  if cause = causeCapture then { emit (.error cause) { s with capCause := cause } with rxState := .fault }
  else txFault c cause s

/-! ## Filters and the detector (spec/40_filter.md, spec/41_tone_detector.md) -/

/-- `acc + a[0] * x[0] + a[1] * x[1] + ...`, left to right, each operation rounded (R12, R111). -/
def accumulate (acc : F64) : List F64 → List F64 → F64
  | a :: as, x :: xs => accumulate (acc.add (a.mul x)) as xs
  | _, _ => acc

/-- FILTER_STEP(F, v): the filter after the step and the step's output (R111). -/
def filterStep (k : Coeffs) (f : Filter) (v : F64) : Filter × F64 :=
  let xh := (v :: f.xh).take k.a.length
  let acc := accumulate (accumulate F64.zero k.a xh) k.b f.yh
  (⟨xh, (acc :: f.yh).take k.b.length⟩, acc)

/-- DETECT(v): the four filter steps with full-wave rectification between, and the NRZ value
`em - es` (R131 to R133). -/
def detect (c : Cfg) (v : F64) (s : State) : State × F64 :=
  let m := filterStep c.design.bpfMark s.bpfMark v
  let sp := filterStep c.design.bpfSpace s.bpfSpace v
  let em := filterStep c.design.lpfMark s.lpfMark m.2.abs
  let es := filterStep c.design.lpfSpace s.lpfSpace sp.2.abs
  ({ s with bpfMark := m.1, bpfSpace := sp.1, lpfMark := em.1, lpfSpace := es.1 }, em.2.sub es.2)

/-! ## The demodulator (spec/42_demodulator.md) -/

/-- RX_CLEAR: back to AWAIT with the timer, index and word cleared; the shift mode stays (R152). -/
def rxClear (s : State) : State := { s with rxPhase := .await, rxTimer := 0, rxBitidx := 0, rxWord := 0 }

/-- DECODE(code) (R158). -/
def decodeCharacter (c : Cfg) (code : Code) (s : State) : State :=
  if code = figsCode then { s with rxShift := .figs }
  else if code = ltrsCode then { s with rxShift := .ltrs }
  else emit (.rxChar (fwd c.params s.rxShift code)) s

/-- DATA_BIT(bit) (R155). -/
def dataBit (b : Bool) (s : State) : State :=
  { s with
    rxWord := if b then s.rxWord ||| (1 <<< s.rxBitidx) else s.rxWord
    rxBitidx := s.rxBitidx + 1 }

/-- STOP_BIT(bit): a mark decodes the word, a space is a framing error; both return to AWAIT (R156, R157). -/
def stopBit (c : Cfg) (b : Bool) (s : State) : State :=
  rxClear (if b then decodeCharacter c s.rxWord s else emit (.framingError s.rxWord) s)

/-- AWAIT_STEP(nrz) (R153). -/
def awaitStep (c : Cfg) (nrz : F64) (s : State) : State :=
  if isStart c nrz then { s with rxPhase := .framing, rxTimer := Config.startDelay, rxBitidx := 0, rxWord := 0 }
  else s

/-- FRAMING_STEP(nrz) (R154). A timer of 0 in FRAMING, which no run reaches, decides at once (log entry 12). -/
def framingStep (c : Cfg) (nrz : F64) (s : State) : State :=
  if s.rxTimer - 1 = 0 then
    let reloaded := { s with rxTimer := Config.samplesPerBit }
    if s.rxBitidx < 5 then dataBit (isMark nrz) reloaded else stopBit c (isMark nrz) reloaded
  else { s with rxTimer := s.rxTimer - 1 }

/-- DEMOD(nrz) (R151). -/
def demod (c : Cfg) (nrz : F64) (s : State) : State :=
  if s.suppress then rxClear s
  else
    match s.rxPhase with
    | .await => awaitStep c nrz s
    | .framing => framingStep c nrz s

/-- The block position, modulo the capture block (R30, R150). -/
def advanceBlock (c : Cfg) (s : State) : State := { s with rxBlockPos := (s.rxBlockPos + 1) % c.params.captureBlock }

/-- RX_SAMPLE(smp): tick, detect, demodulate, advance, in that order (R150, R249c). -/
def rxSampleStep (c : Cfg) (smp : Sample) (s : State) : State :=
  let seen := detect c (sampleValue smp) (coordTick s)
  advanceBlock c (demod c seen.2 seen.1)

/-- Does RX_SAMPLE(smp) decode `code` (R94)? It is enabled, and in it a frame's stop bit is sampled as mark with `code`
as the assembled word (R151, R154, R157). -/
def decodesWord (c : Cfg) (code : Code) (smp : Sample) (s : State) : Bool :=
  let seen := detect c (sampleValue smp) (coordTick s)
  rxSampleEnabled s && !seen.1.suppress && seen.1.rxPhase == .framing && seen.1.rxTimer - 1 == 0 &&
    decide (5 ≤ seen.1.rxBitidx) && isMark seen.2 && seen.1.rxWord == code

/-- The enabling condition of DECODE(code): a captured sample is present, and its RX_SAMPLE decodes `code` (R94). -/
def decodeEnabled (c : Cfg) (code : Code) (s : State) : Bool :=
  match s.capSample with
  | none => false
  | some smp => decodesWord c code smp s

/-- The step inside which DECODE runs: the RX_SAMPLE of the sample that is present, which takes it (R66, R94). -/
def decodeStep (c : Cfg) (s : State) : State :=
  match s.capSample with
  | none => s
  | some smp => rxSampleStep c smp { s with capSample := none }

/-- RX_HALT (R262). -/
def rxHaltStep (s : State) : State := { s with rxState := .halted }

/-! ## The modulator (spec/43_modulator.md) -/

/-- ENCODE(c): the pending code words of a character, with a shift code first when its selector differs from
the shift mode; an unmapped character is skipped (R184, R185). -/
def encodeCharacter (c : Cfg) (ch : Char8) (s : State) : State :=
  match rev c.params ch with
  | none => emit (.skipped ch) s
  | some (k, sel) =>
    if sel ≠ s.txShift then { s with txPending := [shiftCode sel, k], txShift := sel }
    else { s with txPending := [k] }

/-- LOAD_FRAME: the first pending code word becomes a frame; nothing is pending, nothing happens (R183). -/
def loadFrame (s : State) : State :=
  match s.txPending with
  | [] => s
  | code :: rest => { s with txPending := rest, txFrame := some ⟨code, 0, 0⟩ }

/-- TX_WAKE (R181). -/
def txWakeStep (s : State) : State :=
  { coordStart (emit (.sendingChanged true) { s with sending := true }) with txState := .sending }

/-- TX_LOAD (R182). -/
def txLoadStep (c : Cfg) (s : State) : State :=
  if s.txPending.isEmpty then
    match popChar s.queue with
    | none => { s with txState := .draining }
    | some (ch, rest) => loadFrame (encodeCharacter c ch { s with queue := rest })
  else loadFrame s

/-- The sample SYNTH puts out, from the phase before the increment (R191). -/
def synthSample (c : Cfg) (s : State) : Sample := F64.trunc16 (Config.amplitude.mul (c.params.sin s.phi))

/-- The phase SYNTH leaves: one increment, and one subtraction of 2 pi when it has reached it (R191). -/
def nextPhase (c : Cfg) (mark : Bool) (phi : F64) : F64 :=
  let sum := phi.add (toneIncrement c mark)
  if sum.ge Config.twoPi then sum.sub Config.twoPi else sum

/-- SYNTH(b): the output and the advanced phase (R191). -/
def synth (c : Cfg) (mark : Bool) (s : State) : State × Sample :=
  ({ s with phi := nextPhase c mark s.phi }, synthSample c s)

/-- The frame after one more sample, `none` when the seventh cell is complete (R186). -/
def nextFrame (f : TxFrame) : Option TxFrame :=
  if f.smp + 1 = Config.samplesPerBit then
    if h : f.cell.val + 1 < 7 then some ⟨f.code, ⟨f.cell.val + 1, h⟩, 0⟩ else none
  else some { f with smp := f.smp + 1 }

/-- The accepted half of TX_SAMPLE: synthesize, put out, count (R186). -/
def txAcceptSample (c : Cfg) (f : TxFrame) (s : State) : State :=
  let made := synth c (cellBit f.code f.cell) s
  { emit (.sample made.2) { made.1 with playSample := made.2 } with txFrame := nextFrame f }

/-- TX_SAMPLE(play_resp) for an answer on which it is enabled: STALL raises cause 3, ACCEPT takes the sample
(R186, R245). Without a frame the operation is not enabled and nothing happens. -/
def txSampleStep (c : Cfg) (resp : PlayResp) (s : State) : State :=
  match s.txFrame with
  | none => s
  | some f =>
    match effectiveResp resp with
    | .accept => txAcceptSample c f s
    | .stall => raiseFault c causeStall s
    | .busy => s
    | .reserved => s

/-- The sample offered on `play_sample` while a frame is in progress; a BUSY answer leaves it and the state as
they are (R186, R279). -/
def offeredSample (c : Cfg) (s : State) : Option Sample :=
  if s.txState == .sending then s.txFrame.map (fun _ => synthSample c s) else none

/-- TX_RESUME (R187). -/
def txResumeStep (s : State) : State := { s with txState := .sending }

/-- TX_STOP (R188). -/
def txStopStep (c : Cfg) (s : State) : State := { stopSending c s with txState := .idle }

/-- TX_HALT (R263). -/
def txHaltStep (c : Cfg) (s : State) : State := leaveService c .halted s

/-- One TX operation (R94). -/
def txStep (c : Cfg) (resp : PlayResp) (s : State) : TxOp → State
  | .wake => txWakeStep s
  | .load => txLoadStep c s
  | .sample => txSampleStep c resp s
  | .resume => txResumeStep s
  | .stop => txStopStep c s
  | .halt => txHaltStep c s

/-! ## HOST and the platform -/

/-- HOST_ENQ(text): all of it in one step, or, when it does not fit, refused on `host_accept` with the queue
unchanged (R71a, R180). -/
def hostEnqStep (c : Cfg) (text : List Char8) (s : State) : State :=
  if hostEnqEnabled c text s then { s with queue := pushText s.queue text, hostAccept := true }
  else { s with hostAccept := false }

/-- SHUTDOWN: the request is latched (R261). -/
def shutdownStep (s : State) : State := { s with shutdownReq := true }

/-- Every field at its reset value (R22, R270). The schedule and the values last driven on the output ports
are not fields of R22 and stay; a sample not yet taken is dropped (log entry 14). -/
def resetFields (s : State) : State :=
  { State.reset with hostAccept := s.hostAccept, playSample := s.playSample, stim := s.stim }

/-- RESET(cap_ok, play_ok): the reset values, then the faults of the devices that are not there, capture
before playback (R249a, R270). DESIGN depends on the parameters alone, so `c.design` is what it computes
(R271). -/
def resetBlock (c : Cfg) (capOk playOk : Bool) (s : State) : State :=
  let fresh := resetFields s
  let capture := if capOk then fresh else raiseFault c causeCapture fresh
  if playOk then capture else raiseFault c causePlayback capture

end Sys2Proof.Machine
end

