-- ==== Sys2Proof/Machine/Run.lean ====
section
/-! DEFINITION. How an operation's enabling condition decides a step (spec/00_scope.md R10, spec/30_encoding.md
R94 to R96). -/

namespace Sys2Proof.Machine

open Config (Cfg)

/-- An operation presented by name: its step when it is enabled; otherwise "that step does not exist in the
current state" (R10; log entry 8). -/
def whenEnabled (mnemonic : String) (enabled : Bool) (after : State) : Result :=
  if enabled then .next after else .refused (.notEnabled mnemonic)

/-- DECODE(code) as the opcode table lists it: the RX_SAMPLE of the sample that is present, inside which it runs (R94,
R157, R158). Where that RX_SAMPLE decodes no such word, the operation does not exist (R10; log entries 6 and 8). -/
def runDecode (c : Cfg) (mnemonic : String) (code : Code) (s : State) : Result :=
  whenEnabled mnemonic (decodeEnabled c code s) (decodeStep c s)

/-- RESET: enabled for an accepted configuration; a refused one has no reset state and no steps (R115, R270). -/
def runReset (c : Cfg) (capOk playOk : Bool) (s : State) : Result :=
  if resetEnabled c then .next (resetBlock c capOk playOk s) else .refused .illegalConfiguration

/-- The line SAMPLE v: one RX_SAMPLE, or the RX_HALT that is enabled in its place, or nothing when the capture
path takes no step (R96, R262; log entry 15). -/
def sampleLine (c : Cfg) (v : Sample) (s : State) : State :=
  if rxSampleEnabled s then rxSampleStep c v s else if rxHaltEnabled s then rxHaltStep s else s

/-- The line TXTICK resp, drained: the one enabled TX operation with these inputs, or nothing (R95, R96). -/
def txtickLine (c : Cfg) (resp : PlayResp) (drained : Bool) (s : State) : State :=
  match txChoice resp drained s with
  | some op => txStep c resp s op
  | none => s

/-- The line SHUTDOWN: one SHUTDOWN, or nothing on a block without the input (R96, R259). -/
def shutdownLine (c : Cfg) (s : State) : State := if shutdownEnabled c then shutdownStep s else s

end Sys2Proof.Machine
end

