-- ==== Sys2Proof/Machine/Codes.lean ====
section
/-! DEFINITION. The family CODE5: DECODE of each of the 32 code words (spec/42_demodulator.md R158), one meaning per
row. DECODE runs inside the RX_SAMPLE in which a frame's stop bit is sampled as mark, and is no step in any other
state (spec/30_encoding.md R94); a row's meaning is that RX_SAMPLE (log entry 6). -/

namespace Sys2Proof.Machine

/-- CODE_0x00: emits SP (0x20) in LTRS and SP (0x20) in FIGS (R86, R158). -/
def execCode00 (s : State) : Result := runDecode hw "CODE_0x00" 0x00 s

/-- CODE_0x01: emits E (0x45) in LTRS and 3 (0x33) in FIGS (R86, R158). -/
def execCode01 (s : State) : Result := runDecode hw "CODE_0x01" 0x01 s

/-- CODE_0x02: emits LF (0x0A) in LTRS and LF (0x0A) in FIGS (R86, R158). -/
def execCode02 (s : State) : Result := runDecode hw "CODE_0x02" 0x02 s

/-- CODE_0x03: emits A (0x41) in LTRS and - (0x2D) in FIGS (R86, R158). -/
def execCode03 (s : State) : Result := runDecode hw "CODE_0x03" 0x03 s

/-- CODE_0x04: emits SP (0x20) in LTRS and SP (0x20) in FIGS (R86, R158). -/
def execCode04 (s : State) : Result := runDecode hw "CODE_0x04" 0x04 s

/-- CODE_0x05: emits S (0x53) in LTRS and BEL (0x07) in FIGS (R86, R158). -/
def execCode05 (s : State) : Result := runDecode hw "CODE_0x05" 0x05 s

/-- CODE_0x06: emits I (0x49) in LTRS and 8 (0x38) in FIGS (R86, R158). -/
def execCode06 (s : State) : Result := runDecode hw "CODE_0x06" 0x06 s

/-- CODE_0x07: emits U (0x55) in LTRS and 7 (0x37) in FIGS (R86, R158). -/
def execCode07 (s : State) : Result := runDecode hw "CODE_0x07" 0x07 s

/-- CODE_0x08: emits CR (0x0D) in LTRS and CR (0x0D) in FIGS (R86, R158). -/
def execCode08 (s : State) : Result := runDecode hw "CODE_0x08" 0x08 s

/-- CODE_0x09: emits D (0x44) in LTRS and $ (0x24) in FIGS (R86, R158). -/
def execCode09 (s : State) : Result := runDecode hw "CODE_0x09" 0x09 s

/-- CODE_0x0A: emits R (0x52) in LTRS and 4 (0x34) in FIGS (R86, R158). -/
def execCode0A (s : State) : Result := runDecode hw "CODE_0x0A" 0x0A s

/-- CODE_0x0B: emits J (0x4A) in LTRS and ' (0x27) in FIGS (R86, R158). -/
def execCode0B (s : State) : Result := runDecode hw "CODE_0x0B" 0x0B s

/-- CODE_0x0C: emits N (0x4E) in LTRS and , (0x2C) in FIGS (R86, R158). -/
def execCode0C (s : State) : Result := runDecode hw "CODE_0x0C" 0x0C s

/-- CODE_0x0D: emits F (0x46) in LTRS and ! (0x21) in FIGS (R86, R158). -/
def execCode0D (s : State) : Result := runDecode hw "CODE_0x0D" 0x0D s

/-- CODE_0x0E: emits C (0x43) in LTRS and : (0x3A) in FIGS (R86, R158). -/
def execCode0E (s : State) : Result := runDecode hw "CODE_0x0E" 0x0E s

/-- CODE_0x0F: emits K (0x4B) in LTRS and ( (0x28) in FIGS (R86, R158). -/
def execCode0F (s : State) : Result := runDecode hw "CODE_0x0F" 0x0F s

/-- CODE_0x10: emits T (0x54) in LTRS and 5 (0x35) in FIGS (R86, R158). -/
def execCode10 (s : State) : Result := runDecode hw "CODE_0x10" 0x10 s

/-- CODE_0x11: emits Z (0x5A) in LTRS and " (0x22) in FIGS (R86, R158). -/
def execCode11 (s : State) : Result := runDecode hw "CODE_0x11" 0x11 s

/-- CODE_0x12: emits L (0x4C) in LTRS and ) (0x29) in FIGS (R86, R158). -/
def execCode12 (s : State) : Result := runDecode hw "CODE_0x12" 0x12 s

/-- CODE_0x13: emits W (0x57) in LTRS and 2 (0x32) in FIGS (R86, R158). -/
def execCode13 (s : State) : Result := runDecode hw "CODE_0x13" 0x13 s

/-- CODE_0x14: emits H (0x48) in LTRS and # (0x23) in FIGS (R86, R158). -/
def execCode14 (s : State) : Result := runDecode hw "CODE_0x14" 0x14 s

/-- CODE_0x15: emits Y (0x59) in LTRS and 6 (0x36) in FIGS (R86, R158). -/
def execCode15 (s : State) : Result := runDecode hw "CODE_0x15" 0x15 s

/-- CODE_0x16: emits P (0x50) in LTRS and 0 (0x30) in FIGS (R86, R158). -/
def execCode16 (s : State) : Result := runDecode hw "CODE_0x16" 0x16 s

/-- CODE_0x17: emits Q (0x51) in LTRS and 1 (0x31) in FIGS (R86, R158). -/
def execCode17 (s : State) : Result := runDecode hw "CODE_0x17" 0x17 s

/-- CODE_0x18: emits O (0x4F) in LTRS and 9 (0x39) in FIGS (R86, R158). -/
def execCode18 (s : State) : Result := runDecode hw "CODE_0x18" 0x18 s

/-- CODE_0x19: emits B (0x42) in LTRS and ? (0x3F) in FIGS (R86, R158). -/
def execCode19 (s : State) : Result := runDecode hw "CODE_0x19" 0x19 s

/-- CODE_0x1A: emits G (0x47) in LTRS and & (0x26) in FIGS (R86, R158). -/
def execCode1A (s : State) : Result := runDecode hw "CODE_0x1A" 0x1A s

/-- CODE_0x1B: FIGS shift code: sets the shift mode and emits nothing (R86, R158). -/
def execCode1B (s : State) : Result := runDecode hw "CODE_0x1B" 0x1B s

/-- CODE_0x1C: emits M (0x4D) in LTRS and . (0x2E) in FIGS (R86, R158). -/
def execCode1C (s : State) : Result := runDecode hw "CODE_0x1C" 0x1C s

/-- CODE_0x1D: emits X (0x58) in LTRS and / (0x2F) in FIGS (R86, R158). -/
def execCode1D (s : State) : Result := runDecode hw "CODE_0x1D" 0x1D s

/-- CODE_0x1E: emits V (0x56) in LTRS and ; (0x3B) in FIGS (R86, R158). -/
def execCode1E (s : State) : Result := runDecode hw "CODE_0x1E" 0x1E s

/-- CODE_0x1F: LTRS shift code: sets the shift mode and emits nothing (R86, R158). -/
def execCode1F (s : State) : Result := runDecode hw "CODE_0x1F" 0x1F s

end Sys2Proof.Machine
end

