-- ==== Sys2Proof/Machine/Lines.lean ====
section
/-! DEFINITION. The family STIM32: the five lines of the stimulus language (spec/30_encoding.md R96, R98). Each
performs the operation that is enabled, or nothing. -/

namespace Sys2Proof.Machine

/-- RESET cap_ok, play_ok: one RESET (R96, R270). -/
def execReset (capOk playOk : Bool) (s : State) : Result := runReset hw capOk playOk s

/-- SAMPLE v: one RX_SAMPLE or RX_HALT (R96, R150, R262). -/
def execSample (v : Sample) (s : State) : Result := .next (sampleLine hw v s)

/-- PUSH c: one HOST_ENQ of a one-character text (R96, R180). -/
def execPush (c : Char8) (s : State) : Result := .next (hostEnqStep hw [c] s)

/-- TXTICK resp, drained: the one enabled TX operation, or nothing (R95, R96). -/
def execTxtick (resp : PlayResp) (drained : Bool) (s : State) : Result := .next (txtickLine hw resp drained s)

/-- SHUTDOWN: one SHUTDOWN (R96, R261). -/
def execShutdown (s : State) : Result := .next (shutdownLine hw s)

end Sys2Proof.Machine
end

