-- ==== Sys2Proof/Machine/Platform.lean ====
section
/-! DEFINITION. The OP rows of the platform: RESET (spec/70_reset_and_hazards.md R270) and SHUTDOWN
(spec/60_exceptions.md R261). -/

namespace Sys2Proof.Machine

/-- RESET(cap_ok, play_ok) (R270). -/
def execOpReset (capOk playOk : Bool) (s : State) : Result := runReset hw capOk playOk s

/-- SHUTDOWN (R261). -/
def execOpShutdown (s : State) : Result := whenEnabled "SHUTDOWN" (shutdownEnabled hw) (shutdownStep s)

end Sys2Proof.Machine
end

