-- ==== Sys2Proof/Machine/Receive.lean ====
section
/-! DEFINITION. The OP rows of agent RX (spec/42_demodulator.md, spec/60_exceptions.md R262). -/

namespace Sys2Proof.Machine

/-- RX_SAMPLE(smp) (R150). -/
def execRxSample (v : Sample) (s : State) : Result :=
  whenEnabled "RX_SAMPLE" (rxSampleEnabled s) (rxSampleStep hw v s)

/-- RX_HALT (R262). -/
def execRxHalt (s : State) : Result := whenEnabled "RX_HALT" (rxHaltEnabled s) (rxHaltStep s)

/-- DECODE(code), the operation inside RX_SAMPLE, with the sample that is present (R94, R158; log entry 6). -/
def execDecode (code : Code) (s : State) : Result := runDecode hw "DECODE" code s

end Sys2Proof.Machine
end

