-- ==== Sys2Proof/Machine/Transmit.lean ====
section
/-! DEFINITION. The OP rows of the agents TX and HOST (spec/43_modulator.md, spec/60_exceptions.md R263). -/

namespace Sys2Proof.Machine

/-- HOST_ENQ(text); a text that does not fit is refused on `host_accept`, which is an effect (R180). -/
def execHostEnq (text : List Char8) (s : State) : Result := .next (hostEnqStep hw text s)

/-- TX_WAKE (R181). -/
def execTxWake (s : State) : Result := whenEnabled "TX_WAKE" (txWakeEnabled s) (txWakeStep s)

/-- TX_LOAD (R182). -/
def execTxLoad (s : State) : Result := whenEnabled "TX_LOAD" (txLoadEnabled s) (txLoadStep hw s)

/-- TX_SAMPLE(play_resp) (R186). -/
def execTxSample (resp : PlayResp) (s : State) : Result :=
  whenEnabled "TX_SAMPLE" (txSampleEnabled resp s) (txSampleStep hw resp s)

/-- TX_RESUME (R187). -/
def execTxResume (s : State) : Result := whenEnabled "TX_RESUME" (txResumeEnabled s) (txResumeStep s)

/-- TX_STOP with the input `play_drained` (R188). -/
def execTxStop (drained : Bool) (s : State) : Result :=
  whenEnabled "TX_STOP" (txStopEnabled drained s) (txStopStep hw s)

/-- TX_HALT (R263). -/
def execTxHalt (s : State) : Result := whenEnabled "TX_HALT" (txHaltEnabled s) (txHaltStep hw s)

end Sys2Proof.Machine
end

