-- ==== Sys2Proof/Machine/Dispatch.lean ====
section
/-! DEFINITION. The dispatch: one arm per constructor of `Instr`, each one call of its meaning. -/

namespace Sys2Proof.Machine

def exec (i : Instr) (s : State) : Host.Outcome State Fault Refusal :=
  match i with
  | .code00 => Sys2Proof.Machine.execCode00 s
  | .code01 => Sys2Proof.Machine.execCode01 s
  | .code02 => Sys2Proof.Machine.execCode02 s
  | .code03 => Sys2Proof.Machine.execCode03 s
  | .code04 => Sys2Proof.Machine.execCode04 s
  | .code05 => Sys2Proof.Machine.execCode05 s
  | .code06 => Sys2Proof.Machine.execCode06 s
  | .code07 => Sys2Proof.Machine.execCode07 s
  | .code08 => Sys2Proof.Machine.execCode08 s
  | .code09 => Sys2Proof.Machine.execCode09 s
  | .code0A => Sys2Proof.Machine.execCode0A s
  | .code0B => Sys2Proof.Machine.execCode0B s
  | .code0C => Sys2Proof.Machine.execCode0C s
  | .code0D => Sys2Proof.Machine.execCode0D s
  | .code0E => Sys2Proof.Machine.execCode0E s
  | .code0F => Sys2Proof.Machine.execCode0F s
  | .code10 => Sys2Proof.Machine.execCode10 s
  | .code11 => Sys2Proof.Machine.execCode11 s
  | .code12 => Sys2Proof.Machine.execCode12 s
  | .code13 => Sys2Proof.Machine.execCode13 s
  | .code14 => Sys2Proof.Machine.execCode14 s
  | .code15 => Sys2Proof.Machine.execCode15 s
  | .code16 => Sys2Proof.Machine.execCode16 s
  | .code17 => Sys2Proof.Machine.execCode17 s
  | .code18 => Sys2Proof.Machine.execCode18 s
  | .code19 => Sys2Proof.Machine.execCode19 s
  | .code1A => Sys2Proof.Machine.execCode1A s
  | .code1B => Sys2Proof.Machine.execCode1B s
  | .code1C => Sys2Proof.Machine.execCode1C s
  | .code1D => Sys2Proof.Machine.execCode1D s
  | .code1E => Sys2Proof.Machine.execCode1E s
  | .code1F => Sys2Proof.Machine.execCode1F s
  | .reset capOk playOk => Sys2Proof.Machine.execReset capOk playOk s
  | .sample v => Sys2Proof.Machine.execSample v s
  | .push c => Sys2Proof.Machine.execPush c s
  | .txtick resp drained => Sys2Proof.Machine.execTxtick resp drained s
  | .shutdown => Sys2Proof.Machine.execShutdown s
  | .opReset capOk playOk => Sys2Proof.Machine.execOpReset capOk playOk s
  | .rxSample v => Sys2Proof.Machine.execRxSample v s
  | .rxHalt => Sys2Proof.Machine.execRxHalt s
  | .decode code => Sys2Proof.Machine.execDecode code s
  | .hostEnq text => Sys2Proof.Machine.execHostEnq text s
  | .txWake => Sys2Proof.Machine.execTxWake s
  | .txLoad => Sys2Proof.Machine.execTxLoad s
  | .txSample resp => Sys2Proof.Machine.execTxSample resp s
  | .txResume => Sys2Proof.Machine.execTxResume s
  | .txStop drained => Sys2Proof.Machine.execTxStop drained s
  | .txHalt => Sys2Proof.Machine.execTxHalt s
  | .opShutdown => Sys2Proof.Machine.execOpShutdown s

end Sys2Proof.Machine
end

