-- ==== Sys2Proof/Machine/Fetch.lean ====
section
/-! DEFINITION. Taking the next stimulus off the schedule (spec/30_encoding.md R96, R98; spec/20_memory.md R62,
R63; log entries 5 and 10). -/

namespace Sys2Proof.Machine

/-- What the next stimulus asks for. -/
inductive Fetched where
  /-- The schedule is empty: every agent waits (R257). -/
  | idle
  /-- An input of the capture device is held: the first byte of a sample (R63), or an offered sample; no step of the
  block. -/
  | held (s : State)
  /-- An instruction, with the state past its stimulus. -/
  | run (i : Instr) (s : State)
  /-- A stimulus the decoder refuses. -/
  | refuse (e : DecodeError)

/-- A byte of the capture stream: held until its partner arrives, then the two are one sample, the held byte
the more significant (R62, R63). -/
def fetchByte (b : Byte) (s : State) : Fetched :=
  match s.capHeld with
  | none => .held { s with capHeld := some b }
  | some b0 => .run (.sample (sampleOfBytes b0 b)) { s with capHeld := none }

/-- A stimulus as the decoder reads it. -/
def fetchDecoded (d : Except DecodeError Instr) (s : State) : Fetched :=
  match d with
  | .ok i => .run i s
  | .error e => .refuse e

/-- The next stimulus, decoded, with the state past it. -/
def fetch (s : State) : Fetched :=
  match s.stim with
  | [] => .idle
  | .word w :: rest => fetchDecoded (decodeWord w) { s with stim := rest }
  | .code b :: rest => fetchDecoded (decodeCode b) { s with stim := rest }
  | .op i :: rest => fetchDecoded (decodeNamed i) { s with stim := rest }
  | .byte b :: rest => fetchByte b { s with stim := rest }
  | .offer v :: rest => .held { s with stim := rest, capSample := some v }

/-- A receiver about to sample the stop bit of a frame that carries a code word, with the mark tone on the line and a
sample of 0 present: the state that DECODE of the code word needs (R94). The histories are those of a silent line
with a mark envelope of 1.0, so that the sample has an NRZ value above zero. -/
def atStopBit (code : Code) (s : State) : State :=
  { s with
    bpfMark := Filter.reset 3 2, bpfSpace := Filter.reset 3 2, lpfMark := ⟨[F64.zero], [one]⟩
    lpfSpace := Filter.reset 1 1, rxPhase := .framing, rxTimer := 1, rxBitidx := 5, rxWord := code
    rxState := .run, capCause := causeNone, suppress := false, shutdownReq := false, capSample := some 0 }

/-- A row of the opcode table put at the head of the schedule. A code word also takes a receiver at its stop bit, for
DECODE is no step in any other state (log entry 5). Bits that make no stimulus leave the state as it is. -/
def placeTableWord (nbits w : Nat) (s : State) : State :=
  match tableStimulus nbits w with
  | some (.code b) => { atStopBit (b.extractLsb' 0 5) s with stim := .code b :: s.stim }
  | some st => { s with stim := st :: s.stim }
  | none => s

end Sys2Proof.Machine
end

