-- ==== Sys2Proof/Machine/Step.lean ====
section
/-! DEFINITION. One step of the machine: the next choice of the schedule is carried out (spec/00_scope.md R10,
spec/10_state.md R20; log entry 5). -/

namespace Sys2Proof.Machine

/-- Carry out what the next stimulus asks for. With an empty schedule every agent waits and "all state
survives a wait unchanged" (R257). A refused stimulus performs no step (R98, U20); that the run then ends, so that
nothing after it on the schedule is carried out, is the model's choice (DESIGN CHOICE, log entry 23). -/
def carryOut (s : State) (f : Fetched) : Host.Outcome State Fault Refusal :=
  match f with
  | .idle => .next s
  | .held s' => .next s'
  | .run i s' => exec i s'
  | .refuse e => .refused (.undecodable e)

/-- One step. -/
def step (s : State) : Host.Outcome State Fault Refusal := carryOut s (fetch s)

/-- The state whose next step runs the instruction of `nbits` bits `w`, numbered as the opcode table numbers
them: it stands at the head of the schedule, and the receiver is where a code word needs it (log entry 5). -/
def State.withFetchWord (s : State) (nbits w : Nat) : State := placeTableWord nbits w s

end Sys2Proof.Machine
end

