-- ==== Sys2Proof/Machine/Program.lean ====
section
/-! DEFINITION. Stimulus programs: the lines of spec/30_encoding.md R96 in order, with the pseudo-instructions
of R97. A program is one schedule of the agents in which nothing else runs in between. -/

namespace Sys2Proof.Machine

/-- A stimulus program. -/
inductive Program where
  | done
  /-- A line of R96. -/
  | line (i : Instr) (rest : Program)
  /-- PUSHS "text": one HOST_ENQ of the whole text. -/
  | pushs (text : List Char8) (rest : Program)
  /-- SILENCE n. -/
  | silence (n : Nat) (rest : Program)
  /-- SAMPLES [v0, v1, ...]. -/
  | samples (vs : List Sample) (rest : Program)
  /-- TXRUN. -/
  | txrun (rest : Program)
  /-- ECHO. -/
  | echo (rest : Program)
  /-- REPEAT n: the lines of `body`, n times. -/
  | loop (n : Nat) (body rest : Program)
  deriving DecidableEq, Repr

/-- Go on with a next state; a fault or a refusal ends the program. -/
def andThen (r : Result) (k : State → Result) : Result :=
  match r with
  | .next s => k s
  | .fault f => .fault f
  | .refused q => .refused q

/-- SAMPLES: one SAMPLE line for each value. -/
def runSamples : List Sample → State → State
  | [], s => s
  | v :: vs, s => runSamples vs (sampleLine hw v s)

/-- What TXRUN or ECHO does on one of its ticks; ECHO feeds a produced sample back at once (R97). -/
def txrunTick (echo : Bool) (op : TxOp) (s : State) : State :=
  let after := txStep hw .accept s op
  if echo && op == .sample then sampleLine hw after.playSample after else after

/-- TXTICK ACCEPT, 1 repeated until TX is in IDLE after at least one TX step, or no TX operation is enabled,
for at most `fuel` ticks (R97). -/
def txrunTicks (echo : Bool) : Nat → State → State
  | 0, s => s
  | fuel + 1, s =>
    match txChoice .accept true s with
    | none => s
    | some op =>
      let after := txrunTick echo op s
      if after.txState = .idle then after else txrunTicks echo fuel after

/-- More ticks than a TXRUN from this state can take: a character costs at most two frames and a TX_LOAD for
each, and a transmission four more steps (R283). -/
def txrunBound (s : State) : Nat :=
  (2 * s.queue.length + s.txPending.length + 1) * (Config.frameSamples + 1) + 4

/-- `body` carried out `n` times. -/
def runTimes (body : State → Result) : Nat → State → Result
  | 0, s => .next s
  | n + 1, s => andThen (body s) (runTimes body n)

/-- A program from a state. -/
def runProgram : Program → State → Result
  | .done, s => .next s
  | .line i rest, s => andThen (exec i s) (runProgram rest)
  | .pushs text rest, s => andThen (exec (.hostEnq text) s) (runProgram rest)
  | .silence n rest, s => runProgram rest (runSamples (List.replicate n 0) s)
  | .samples vs rest, s => runProgram rest (runSamples vs s)
  | .txrun rest, s => runProgram rest (txrunTicks false (txrunBound s) s)
  | .echo rest, s => runProgram rest (txrunTicks true (txrunBound s) s)
  | .loop n body rest, s => andThen (runTimes (runProgram body) n s) (runProgram rest)

end Sys2Proof.Machine
end

