-- ==== Sys2Proof/Safety.lean ====
section
/-! DEFINITION. What a sound state is, in the terms of the spec's own invariants (spec/10_state.md R48), and
the vocabulary the statements share: runs of many samples, of many ticks, and of many NRZ values. -/

namespace Sys2Proof.Machine

open Config (Cfg Coeffs Params Design)

/-! ## The invariants of R48 -/

/-- R48 (a) and (b), with the bound of R26 and R27. -/
abbrev demodulatorSound (s : State) : Prop :=
  (s.rxPhase = .await → s.rxTimer = 0 ∧ s.rxBitidx = 0 ∧ s.rxWord = 0) ∧
  (s.rxPhase = .framing →
    1 ≤ s.rxTimer ∧ s.rxTimer ≤ Config.startDelay ∧ s.rxBitidx ≤ 5 ∧ s.rxWord.toNat < 2 ^ s.rxBitidx)

/-- R48 (c). -/
abbrev guardSound (s : State) : Prop :=
  (s.guardArmed = false → s.guardCount = 0) ∧
  (s.guardArmed = true → 1 ≤ s.guardCount ∧ s.guardCount ≤ hw.params.guardSamples)

/-- R48 (d), and what keeps it so: no guard is armed while sending (R226). -/
abbrev turnTakingSound (s : State) : Prop :=
  (s.sending = true → s.suppress = true) ∧ (s.sending = true → s.guardArmed = false)

/-- R48 (e), (f) and (h), with the bound of R38. -/
abbrev transmitterSound (s : State) : Prop :=
  (s.txFrame ≠ none ∨ s.txPending ≠ [] → s.txState = .sending) ∧
  (s.txState = .idle → s.sending = false) ∧
  (s.txState = .sending ∨ s.txState = .draining → s.sending = true) ∧
  s.txPending.length ≤ 2 ∧
  (∀ f ∈ s.txFrame, f.smp < Config.samplesPerBit)

/-- R23: each history is as long as its coefficient vector. -/
abbrev filterSound (k : Coeffs) (f : Filter) : Prop := f.xh.length = k.a.length ∧ f.yh.length = k.b.length

/-- R23 for the four instances, and the range of R30. -/
abbrev detectorSound (s : State) : Prop :=
  filterSound hw.design.bpfMark s.bpfMark ∧ filterSound hw.design.bpfSpace s.bpfSpace ∧
  filterSound hw.design.lpfMark s.lpfMark ∧ filterSound hw.design.lpfSpace s.lpfSpace ∧
  s.rxBlockPos < hw.params.captureBlock

/-- R48 (g): `0.0 <= v < TWO_PI`. -/
abbrev phaseInRange (v : F64) : Prop := v.ge F64.zero = true ∧ v.lt Config.twoPi = true

/-- R29, R33, R40: a path has a cause exactly when it is in FAULT, and the cause is one its path can have. -/
abbrev causesSound (s : State) : Prop :=
  (s.rxState = .fault ↔ s.capCause = causeCapture) ∧ (s.capCause = causeNone ∨ s.capCause = causeCapture) ∧
  (s.txState = .fault ↔ s.playCause ≠ causeNone) ∧ s.playCause ≠ causeCapture

/-- The invariant of every reachable state, R48 without (g). -/
abbrev sound (s : State) : Prop :=
  demodulatorSound s ∧ guardSound s ∧ turnTakingSound s ∧ transmitterSound s ∧ detectorSound s ∧ causesSound s

/-! ## Kinds of instruction -/

/-- The two rows that perform RESET. -/
def performsReset : Instr → Bool
  | .reset _ _ => true
  | .opReset _ _ => true
  | _ => false

/-- The rows that perform operations of agent RX; a code word is decoded inside RX_SAMPLE. -/
def performsReceive (i : Instr) : Bool :=
  i.codeWord?.isSome ||
    (match i with
     | .sample _ => true
     | .rxSample _ => true
     | .rxHalt => true
     | .decode _ => true
     | _ => false)

/-- The rows that perform operations of agent TX. -/
def performsTransmit : Instr → Bool
  | .txtick _ _ => true
  | .txWake => true
  | .txLoad => true
  | .txSample _ => true
  | .txResume => true
  | .txStop _ => true
  | .txHalt => true
  | _ => false

/-- The fields agent TX owns, and what no step of agent RX may write (R22, R68). -/
abbrev sameTransmitter (s t : State) : Prop :=
  t.txState = s.txState ∧ t.txShift = s.txShift ∧ t.sending = s.sending ∧ t.phi = s.phi ∧
  t.txPending = s.txPending ∧ t.txFrame = s.txFrame ∧ t.queue = s.queue ∧ t.playCause = s.playCause ∧
  t.shutdownReq = s.shutdownReq ∧ t.hostAccept = s.hostAccept ∧ t.playSample = s.playSample ∧
  t.capHeld = s.capHeld ∧ t.stim = s.stim

/-- The fields agent RX owns, and what no step of agent TX may write (R22, R68). -/
abbrev sameReceiver (s t : State) : Prop :=
  t.bpfMark = s.bpfMark ∧ t.bpfSpace = s.bpfSpace ∧ t.lpfMark = s.lpfMark ∧ t.lpfSpace = s.lpfSpace ∧
  t.rxPhase = s.rxPhase ∧ t.rxTimer = s.rxTimer ∧ t.rxBitidx = s.rxBitidx ∧ t.rxWord = s.rxWord ∧
  t.rxShift = s.rxShift ∧ t.rxState = s.rxState ∧ t.rxBlockPos = s.rxBlockPos ∧ t.capCause = s.capCause ∧
  t.shutdownReq = s.shutdownReq ∧ t.hostAccept = s.hostAccept ∧ t.capHeld = s.capHeld ∧ t.capSample = s.capSample ∧ t.stim = s.stim

/-! ## Words and values, in plain arithmetic -/

/-- R98's refusals, read from the number a stimulus word is: a reserved op field, a non-zero must-be-zero bit,
or TXTICK with resp 3. -/
abbrev reservedWord (w : BitVec 32) : Prop :=
  5 ≤ w.toNat / 2 ^ 28 ∨
  (w.toNat / 2 ^ 28 = 0 ∧ w.toNat % 2 ^ 28 / 2 ^ 2 ≠ 0) ∨
  (w.toNat / 2 ^ 28 = 1 ∧ w.toNat % 2 ^ 28 / 2 ^ 16 ≠ 0) ∨
  (w.toNat / 2 ^ 28 = 2 ∧ w.toNat % 2 ^ 28 / 2 ^ 8 ≠ 0) ∨
  (w.toNat / 2 ^ 28 = 3 ∧ (w.toNat % 2 ^ 28 / 2 ^ 3 ≠ 0 ∨ w.toNat % 2 ^ 2 = 3)) ∨
  (w.toNat / 2 ^ 28 = 4 ∧ w.toNat % 2 ^ 28 ≠ 0)

/-- The number R98's table gives a line's word, field by field; none for an instruction that is no line. -/
def lineNumber? : Instr → Option Nat
  | .reset capOk playOk => some (capOk.toNat + 2 * playOk.toNat)
  | .sample v => some (1 * 2 ^ 28 + v.toNat)
  | .push c => some (2 * 2 ^ 28 + c.toNat)
  | .txtick .accept drained => some (3 * 2 ^ 28 + 4 * drained.toNat + 0)
  | .txtick .busy drained => some (3 * 2 ^ 28 + 4 * drained.toNat + 1)
  | .txtick .stall drained => some (3 * 2 ^ 28 + 4 * drained.toNat + 2)
  | .shutdown => some (4 * 2 ^ 28)
  | _ => none

/-- The sign of a value, of a zero too; a NaN's is not represented (log entry 2). -/
def signBit : F64 → Bool
  | .nan => false
  | .inf s => s
  | .num s _ _ => s

/-- Is the last bit of the fraction 0? Such a value wins a tie (R12). -/
def lastBitZero : F64 → Bool
  | .nan => false
  | .inf _ => false
  | .num _ _ f => !f.getLsbD 0

/-- `r` is the binary64 value nearest to `exact / scale` units of 2^-1074, ties to even (R12): it is finite, and
every other value is further off, or as far off where `r` has the even fraction. -/
def nearestEven (exact scale : Int) (r : F64) : Prop :=
  ∃ z, F64.units? r = some z ∧ ∀ v w, F64.units? v = some w → w ≠ z →
    |exact - z * scale| < |exact - w * scale| ∨ (|exact - z * scale| = |exact - w * scale| ∧ lastBitZero r = true)

/-- Magnitudes from here on round to an infinity: the largest finite value is 2^53 - 1 units of 2^2045, and the
bound is half a unit above it, in units of 2^-1074. -/
def overflowBound : Int := (2 ^ 54 - 1) * 2 ^ 2044

/-! ## Runs -/

/-- `n` ticks TXTICK ACCEPT with the same drained indication. -/
def acceptedTicks (drained : Bool) : Nat → State → State
  | 0, s => s
  | n + 1, s => acceptedTicks drained n (txtickLine hw .accept drained s)

/-- DEMOD on a sequence of NRZ values. -/
def demodRun (c : Cfg) : List F64 → State → State
  | [], s => s
  | nrz :: rest, s => demodRun c rest (demod c nrz s)

/-- FILTER_STEP on a sequence of inputs: the outputs. -/
def filterOutputs (k : Coeffs) : Filter → List F64 → List F64
  | _, [] => []
  | f, v :: rest => (filterStep k f v).2 :: filterOutputs k (filterStep k f v).1 rest

/-- ENCODE on a text, character by character, from a shift mode with nothing pending: the code words it leaves
pending, in sending order, and the shift mode left (R184). -/
def sentCodes (c : Cfg) : Shift → List Char8 → List Code × Shift
  | mode, [] => ([], mode)
  | mode, ch :: rest =>
    let encoded := encodeCharacter c ch { State.reset with txShift := mode }
    let more := sentCodes c encoded.txShift rest
    (encoded.txPending ++ more.1, more.2)

/-- DECODE on a sequence of code words. -/
def decodeRun (c : Cfg) : List Code → State → State
  | [], s => s
  | k :: rest, s => decodeRun c rest (decodeCharacter c k s)

/-- The characters received, oldest first (R246 `RxChar(c)`). -/
def receivedCharacters (trace : List Event) : List Char8 :=
  trace.filterMap (fun e => match e with | .rxChar c => some c | _ => none)

end Sys2Proof.Machine
end

