-- ==== Sys2Proof/Certificates/Slice0/Obligations.lean ====
section
/-! DEFINITION. The statements for the provers. Each docstring names the rules of spec/ it formalises, and the
log entry where a clause rests on a choice of the model's. -/

open Sys2Proof Sys2Proof.Machine
open Sys2Proof.Config (Cfg Coeffs Params Design)

/-! ## Encodings and the step -/

/-- A step carries out the instruction the next stimulus decodes to, on the state past that stimulus; with an
empty schedule every agent waits (R10, R96, R257; the schedule is the model's, log entry 5). A sample offered on its own
is put on the input port, and no agent moves (log entry 6). -/
def Obligations.StepRunsTheDecodedStimulus : Prop :=
  ∀ (s : State) (rest : List Stimulus),
    (∀ w i, s.stim = .word w :: rest → decodeWord w = .ok i → step s = exec i { s with stim := rest }) ∧
    (∀ b i, s.stim = .code b :: rest → decodeCode b = .ok i → step s = exec i { s with stim := rest }) ∧
    (∀ i, s.stim = .op i :: rest → i.wellFormed = true → step s = exec i { s with stim := rest }) ∧
    (∀ v, s.stim = .offer v :: rest → step s = .next { s with stim := rest, capSample := some v }) ∧
    (s.stim = [] → step s = .next s)

/-- Two consecutive bytes of the capture stream are one sample, the first the more significant; a byte without
its partner is held (R62, R63; log entry 10). -/
def Obligations.ByteStreamFormsBigEndianSamples : Prop :=
  ∀ (s : State) (b0 b1 : Byte) (rest : List Stimulus), s.stim = .byte b0 :: .byte b1 :: rest → s.capHeld = none →
    ∃ u, step s = .next u ∧ u = { s with stim := .byte b1 :: rest, capHeld := some b0 } ∧
      ∃ v : Sample, v.toNat = 256 * b0.toNat + b1.toNat ∧
        step u = exec (.sample v) { s with stim := rest, capHeld := none }

/-- R98: a word with a reserved op field, a non-zero must-be-zero bit, or TXTICK with resp 3 is refused and
performs no step; every other word is one of the five lines. -/
def Obligations.ReservedStimulusWordsAreRefused : Prop :=
  ∀ (s : State) (w : BitVec 32) (rest : List Stimulus), s.stim = .word w :: rest →
    (reservedWord w → ∃ e, decodeWord w = .error e ∧ step s = .refused (.undecodable e)) ∧
    (¬ reservedWord w → ∃ i, decodeWord w = .ok i ∧ i.isLine = true ∧ i.wellFormed = true)

/-- For every well-formed instruction, with every operand, decoding the stimulus that presents it gives the
instruction back (R84, R98; the presentation by name is log entry 7). -/
def Obligations.DecodeOfEncodeIsTheInstruction : Prop :=
  ∀ i : Instr, i.wellFormed = true → decodeStimulus (encode i) = some (.ok i)

/-- Every word the decoder accepts is the word the encoder writes for what it read: no two words stand for one
line (R98). -/
def Obligations.EncodeOfDecodeIsTheWord : Prop :=
  ∀ (w : BitVec 32) (i : Instr), decodeWord w = .ok i → encode i = .word w

/-- R98: a word is read as a line exactly when it is the number the table's fields give that line; a word that is no
line's number is refused by name and performs no step. -/
def Obligations.StimulusWordsHaveTheirFields : Prop :=
  ∀ (s : State) (w : BitVec 32) (rest : List Stimulus), s.stim = .word w :: rest →
    (∀ i, decodeWord w = .ok i ↔ lineNumber? i = some w.toNat) ∧
    ((∀ i, lineNumber? i ≠ some w.toNat) → ∃ e, decodeWord w = .error e ∧ step s = .refused (.undecodable e))

/-- Words of `95_test_vectors.md` V18 and code words of R86, written out, decode to what they stand for. -/
def Obligations.WordsWrittenOutDecode : Prop :=
  decodeTableWord 32 0x00000002 = some (.reset false true) ∧ decodeTableWord 32 0x1000FFFF = some (.sample (-1)) ∧
  decodeTableWord 32 0x20000045 = some (.push 0x45) ∧ decodeTableWord 32 0x30000004 = some (.txtick .accept true) ∧
  decodeTableWord 32 0x40000000 = some .shutdown ∧ decodeTableWord 8 0x05 = some .code05 ∧
  decodeTableWord 8 0x1B = some .code1B ∧ decodeTableWord 32 0x30000003 = none

/-- R95: under given inputs at most one TX operation is enabled, and RX_SAMPLE and RX_HALT exclude each other. -/
def Obligations.EachAgentHasAtMostOneOperation : Prop :=
  (∀ (resp : PlayResp) (drained : Bool) (s : State) (o1 o2 : TxOp),
    txEnabled resp drained s o1 = true → txEnabled resp drained s o2 = true → o1 = o2) ∧
  (∀ s : State, ¬ (rxSampleEnabled s = true ∧ rxHaltEnabled s = true))

/-- R94, R96: a line performs exactly the operation that is enabled: a TXTICK the TX operation, a SAMPLE the RX
operation; and a TXTICK nothing when none is. Two clauses are the model's reading: that a SAMPLE on a capture path in
FAULT or HALTED does nothing (log entry 15), and what TXTICK does with the reserved response, which no word carries
(log entry 18). -/
def Obligations.LinesPerformTheEnabledOperation : Prop :=
  ∀ (s : State) (resp : PlayResp) (drained : Bool) (v : Sample),
    (txWakeEnabled s = true → exec (.txtick resp drained) s = exec .txWake s) ∧
    (txLoadEnabled s = true → exec (.txtick resp drained) s = exec .txLoad s) ∧
    (txSampleEnabled resp s = true → exec (.txtick resp drained) s = exec (.txSample resp) s) ∧
    (txResumeEnabled s = true → exec (.txtick resp drained) s = exec .txResume s) ∧
    (txStopEnabled drained s = true → exec (.txtick resp drained) s = exec (.txStop drained) s) ∧
    (txHaltEnabled s = true → exec (.txtick resp drained) s = exec .txHalt s) ∧
    ((∀ op, txEnabled resp drained s op = false) → exec (.txtick resp drained) s = .next s) ∧
    (rxSampleEnabled s = true → exec (.sample v) s = exec (.rxSample v) s) ∧
    (rxHaltEnabled s = true → exec (.sample v) s = exec .rxHalt s) ∧
    (rxSampleEnabled s = false → rxHaltEnabled s = false → exec (.sample v) s = .next s)

/-- R10, R94: an operation presented by name whose enabling condition is false is no step: it is refused, with no
effect. So are a code word and DECODE where no sample is present on the port, and where the RX_SAMPLE of that sample
does not decode that word. That this is a refusal is log entry 8; that the sample is the one on the port is log
entry 6. -/
def Obligations.DisabledOperationsAreNoStep : Prop :=
  ∀ (s : State) (resp : PlayResp) (drained : Bool) (v : Sample),
    (rxSampleEnabled s = false → exec (.rxSample v) s = .refused (.notEnabled "RX_SAMPLE")) ∧
    (rxHaltEnabled s = false → exec .rxHalt s = .refused (.notEnabled "RX_HALT")) ∧
    (txWakeEnabled s = false → exec .txWake s = .refused (.notEnabled "TX_WAKE")) ∧
    (txLoadEnabled s = false → exec .txLoad s = .refused (.notEnabled "TX_LOAD")) ∧
    (txSampleEnabled resp s = false → exec (.txSample resp) s = .refused (.notEnabled "TX_SAMPLE")) ∧
    (txResumeEnabled s = false → exec .txResume s = .refused (.notEnabled "TX_RESUME")) ∧
    (txStopEnabled drained s = false → exec (.txStop drained) s = .refused (.notEnabled "TX_STOP")) ∧
    (txHaltEnabled s = false → exec .txHalt s = .refused (.notEnabled "TX_HALT")) ∧
    (∀ (code : Code) (i : Instr), i.codeWord? = some code ∨ i = .decode code →
      (s.capSample = none → ∃ name, exec i s = .refused (.notEnabled name)) ∧
      (s.capSample = some v → ¬ (rxSampleEnabled s = true ∧ (coordTick s).suppress = false ∧ s.rxPhase = .framing ∧
          s.rxTimer ≤ 1 ∧ 5 ≤ s.rxBitidx ∧ isMark (detect hw (sampleValue v) (coordTick s)).2 = true ∧ s.rxWord = code) →
        ∃ name, exec i s = .refused (.notEnabled name)))

/-! ## Code words and the codebook -/

/-- R86, R94, R157, R158, for each of the 32 CODE5 rows (CODE_0x00 to CODE_0x1F) and for DECODE: in the RX_SAMPLE in
which a frame's stop bit is sampled as mark, the assembled code word is decoded. 0x1B sets FIGS and 0x1F sets LTRS,
emitting nothing; every other code emits the character of R86's table for the shift mode. The demodulator is back in
AWAIT and nothing else changes but what every RX_SAMPLE changes. That a row's RX_SAMPLE is that of the sample present on
the port is the model's choice (log entry 6); the step is the same as that of SAMPLE and RX_SAMPLE with that sample. -/
def Obligations.DecodeSetsShiftOrEmitsOneCharacter : Prop :=
  let letters : List Char8 :=
    [0x20, 0x45, 0x0A, 0x41, 0x20, 0x53, 0x49, 0x55, 0x0D, 0x44, 0x52, 0x4A, 0x4E, 0x46, 0x43, 0x4B,
     0x54, 0x5A, 0x4C, 0x57, 0x48, 0x59, 0x50, 0x51, 0x4F, 0x42, 0x47, 0x00, 0x4D, 0x58, 0x56, 0x00]
  let figures : List Char8 :=
    [0x20, 0x33, 0x0A, 0x2D, 0x20, 0x07, 0x38, 0x37, 0x0D, 0x24, 0x34, 0x27, 0x2C, 0x21, 0x3A, 0x28,
     0x35, 0x22, 0x29, 0x32, 0x23, 0x36, 0x30, 0x31, 0x39, 0x3F, 0x26, 0x00, 0x2E, 0x2F, 0x3B, 0x00]
  (∀ (s : State) (code : Code) (v : Sample) (i : Instr), i.codeWord? = some code ∨ i = .decode code →
    s.capSample = some v → s.rxState = .run → ¬ (s.shutdownReq = true ∧ s.rxBlockPos = 0) → (coordTick s).suppress = false →
    s.rxPhase = .framing → s.rxTimer = 1 → s.rxBitidx = 5 → s.rxWord = code →
    isMark (detect hw (sampleValue v) (coordTick s)).2 = true →
    let shift : Shift := if code = 0x1B then .figs else if code = 0x1F then .ltrs else s.rxShift
    let emitted : List Event :=
      if code = 0x1B ∨ code = 0x1F then []
      else [.rxChar ((if s.rxShift = .ltrs then letters else figures).getD code.toNat 0)]
    let taken := { s with capSample := none }
    ∃ t, exec i s = .next t ∧ exec (.sample v) taken = .next t ∧ exec (.rxSample v) taken = .next t ∧
      t = { (detect hw (sampleValue v) (coordTick s)).1 with
        rxPhase := .await, rxTimer := 0, rxBitidx := 0, rxWord := 0
        rxShift := shift, trace := s.trace ++ emitted, rxBlockPos := (s.rxBlockPos + 1) % 2048, capSample := none }) ∧
  (∀ code : Code, fwd hw.params .ltrs code = letters.getD code.toNat 0 ∧
    fwd hw.params .figs code = figures.getD code.toNat 0)

/-- R89: the 55 mapped characters of the default codebook, and no other. Each row is (character, code, selector),
the selector true for FIGS. -/
def Obligations.ReverseTableIsTheSpecs : Prop :=
  let rows : List (Nat × Nat × Bool) :=
    [(0x07, 0x05, true), (0x0A, 0x02, false), (0x0D, 0x08, false), (0x20, 0x04, false), (0x21, 0x0D, true),
     (0x22, 0x11, true), (0x23, 0x14, true), (0x24, 0x09, true), (0x26, 0x1A, true), (0x27, 0x0B, true),
     (0x28, 0x0F, true), (0x29, 0x12, true), (0x2C, 0x0C, true), (0x2D, 0x03, true), (0x2E, 0x1C, true),
     (0x2F, 0x1D, true), (0x30, 0x16, true), (0x31, 0x17, true), (0x32, 0x13, true), (0x33, 0x01, true),
     (0x34, 0x0A, true), (0x35, 0x10, true), (0x36, 0x15, true), (0x37, 0x07, true), (0x38, 0x06, true),
     (0x39, 0x18, true), (0x3A, 0x0E, true), (0x3B, 0x1E, true), (0x3F, 0x19, true), (0x41, 0x03, false),
     (0x42, 0x19, false), (0x43, 0x0E, false), (0x44, 0x09, false), (0x45, 0x01, false), (0x46, 0x0D, false),
     (0x47, 0x1A, false), (0x48, 0x14, false), (0x49, 0x06, false), (0x4A, 0x0B, false), (0x4B, 0x0F, false),
     (0x4C, 0x12, false), (0x4D, 0x1C, false), (0x4E, 0x0C, false), (0x4F, 0x18, false), (0x50, 0x16, false),
     (0x51, 0x17, false), (0x52, 0x0A, false), (0x53, 0x05, false), (0x54, 0x10, false), (0x55, 0x07, false),
     (0x56, 0x1E, false), (0x57, 0x13, false), (0x58, 0x1D, false), (0x59, 0x15, false), (0x5A, 0x11, false)]
  rows.length = 55 ∧
  ∀ c : Char8, rev hw.params c =
    (rows.find? (fun r => r.1 == c.toNat)).map
      (fun r => (BitVec.ofNat 5 r.2.1, if r.2.2 then Shift.figs else Shift.ltrs))

/-- R88, for every codebook: Rev chooses the lowest code of 0x01 to 0x1E but 0x1B that decodes to the character in
LTRS, else the lowest in FIGS, else none. -/
def Obligations.ReverseTableIsLowestLettersFirst : Prop :=
  ∀ (p : Params) (ch : Char8),
    let decodes := fun (m : Shift) (k : Code) =>
      1 ≤ k.toNat ∧ k.toNat ≤ 0x1E ∧ k.toNat ≠ 0x1B ∧ fwd p m k = ch
    let lowest := fun (m : Shift) (k : Code) => decodes m k ∧ ∀ j, decodes m j → k.toNat ≤ j.toNat
    (∀ k, rev p ch = some (k, .ltrs) ↔ lowest .ltrs k) ∧
    (∀ k, rev p ch = some (k, .figs) ↔ (∀ j, ¬ decodes .ltrs j) ∧ lowest .figs k) ∧
    (rev p ch = none ↔ ∀ m j, ¬ decodes m j)

/-- R90: (a) for every codebook, a character sent under its own selector decodes back to itself; (b) for code words
that is not so: 0x00 decodes to SP, which encodes as 0x04. R90(c) and R161: what a code decodes to, and the shift
mode it leaves, depend on the code and the shift mode alone. -/
def Obligations.RoundTripLawsOfTheCodebook : Prop :=
  (∀ (p : Params) (ch : Char8) (k : Code) (m : Shift), rev p ch = some (k, m) → fwd p m k = ch) ∧
  (fwd hw.params .ltrs 0x00 = 0x20 ∧ fwd hw.params .figs 0x00 = 0x20 ∧ rev hw.params 0x20 = some (0x04, .ltrs)) ∧
  (∀ (c : Cfg) (code : Code) (s u : State), s.rxShift = u.rxShift →
    (decodeCharacter c code s).rxShift = (decodeCharacter c code u).rxShift ∧
    ∃ new : List Event, (decodeCharacter c code s).trace = s.trace ++ new ∧
      (decodeCharacter c code u).trace = u.trace ++ new)

/-- R184, R158: for every configuration and every text of mapped characters, the code words ENCODE gives the text,
decoded by a receiver in the sender's shift mode, emit exactly the text and leave the receiver in the sender's
mode. -/
def Obligations.TextSentAsCodesIsReceivedAsText : Prop :=
  ∀ (c : Cfg) (text : List Char8) (s : State), (∀ ch ∈ text, rev c.params ch ≠ none) →
    let sent := sentCodes c s.rxShift text
    (decodeRun c sent.1 s).trace = s.trace ++ text.map .rxChar ∧ (decodeRun c sent.1 s).rxShift = sent.2

/-- R194: in a run of characters of one selector ENCODE gives a shift code before the first if and only if the mode
differs, and none elsewhere. From LTRS, the reset value, "SOS" has no shift code, and a digit after a letter exactly
one FIGS. -/
def Obligations.ShiftCodesAreMinimal : Prop :=
  (∀ (c : Cfg) (mode sel : Shift) (text : List Char8), text ≠ [] →
    (∀ ch ∈ text, ∃ k, rev c.params ch = some (k, sel)) →
    ∃ codes : List Code, codes.length = text.length ∧
      (∀ (n : Nat) (ch : Char8) (k : Code), text[n]? = some ch → codes[n]? = some k → rev c.params ch = some (k, sel)) ∧
      sentCodes c mode text = ((if mode = sel then [] else [shiftCode sel]) ++ codes, sel)) ∧
  sentCodes hw State.reset.txShift [0x53, 0x4F, 0x53] = ([0x05, 0x18, 0x05], .ltrs) ∧
  (∀ (letter digit : Char8) (k l : Code), 0x41 ≤ letter.toNat → letter.toNat ≤ 0x5A → 0x30 ≤ digit.toNat →
    digit.toNat ≤ 0x39 → rev hw.params letter = some (k, .ltrs) → rev hw.params digit = some (l, .figs) →
    sentCodes hw State.reset.txShift [letter, digit] = ([k, 0x1B, l], .figs))

/-! ## Arithmetic -/

/-- R12: a sum of finite values is rounded once, to nearest, ties to even; a sum beyond the finite range is an
infinity of its sign; an exact zero is +0.0 unless both addends are -0.0. Infinities and NaNs as IEEE 754 has them. -/
def Obligations.AdditionRoundsToNearestEven : Prop :=
  (∀ (a b : F64) (x y : Int), F64.units? a = some x → F64.units? b = some y →
    (|x + y| < overflowBound → nearestEven (x + y) 1 (a.add b)) ∧
    (overflowBound ≤ |x + y| → a.add b = .inf (decide (x + y < 0))) ∧
    (x + y = 0 → a.add b = .num (signBit a && signBit b) 0 0)) ∧
  (∀ a : F64, F64.add .nan a = .nan ∧ F64.add a .nan = .nan) ∧
  (∀ (s : Bool) (a : F64) (x : Int), F64.units? a = some x → F64.add (.inf s) a = .inf s ∧ F64.add a (.inf s) = .inf s) ∧
  (∀ s : Bool, F64.add (.inf s) (.inf s) = .inf s ∧ F64.add (.inf s) (.inf (!s)) = .nan)

/-- R12: a product of finite values is rounded once, to nearest, ties to even, and its sign is that of the operands'
signs. The product of the two numbers of units is in units of 2^-2148. Infinities and NaNs as IEEE 754 has them. -/
def Obligations.MultiplicationRoundsToNearestEven : Prop :=
  (∀ (a b : F64) (x y : Int), F64.units? a = some x → F64.units? b = some y →
    (|x * y| < overflowBound * 2 ^ 1074 → nearestEven (x * y) (2 ^ 1074) (a.mul b)) ∧
    (overflowBound * 2 ^ 1074 ≤ |x * y| → a.mul b = .inf (decide (x * y < 0))) ∧
    signBit (a.mul b) = (signBit a ^^ signBit b)) ∧
  (∀ a : F64, F64.mul .nan a = .nan ∧ F64.mul a .nan = .nan) ∧
  (∀ (s : Bool) (a : F64) (x : Int), F64.units? a = some x →
    F64.mul (.inf s) a = (if x = 0 then .nan else .inf (s ^^ signBit a)) ∧
    F64.mul a (.inf s) = (if x = 0 then .nan else .inf (signBit a ^^ s))) ∧
  (∀ s t : Bool, F64.mul (.inf s) (.inf t) = .inf (s ^^ t))

/-- R12: a quotient of finite values is rounded once, to nearest, ties to even, and its sign is that of the operands'
signs. Division by zero gives an infinity, and a NaN for zero by zero. Infinities and NaNs as IEEE 754 has them. -/
def Obligations.DivisionRoundsToNearestEven : Prop :=
  (∀ (a b : F64) (x y : Int), F64.units? a = some x → F64.units? b = some y → y ≠ 0 →
    (|x * 2 ^ 1074| < overflowBound * |y| → nearestEven (x * 2 ^ 1074) y (a.div b)) ∧
    (overflowBound * |y| ≤ |x * 2 ^ 1074| → a.div b = .inf (decide (x < 0) ^^ decide (y < 0))) ∧
    signBit (a.div b) = (signBit a ^^ signBit b)) ∧
  (∀ (a b : F64) (x : Int), F64.units? a = some x → F64.units? b = some 0 →
    a.div b = (if x = 0 then .nan else .inf (signBit a ^^ signBit b))) ∧
  (∀ a : F64, F64.div .nan a = .nan ∧ F64.div a .nan = .nan) ∧
  (∀ (s : Bool) (a : F64) (x : Int), F64.units? a = some x →
    F64.div (.inf s) a = .inf (s ^^ signBit a) ∧ F64.div a (.inf s) = .num (signBit a ^^ s) 0 0) ∧
  (∀ s t : Bool, F64.div (.inf s) (.inf t) = .nan)

/-- R130: the captured sample's value is exact and unscaled. -/
def Obligations.SampleConversionIsExact : Prop :=
  ∀ v : Sample, F64.units? (sampleValue v) = some (v.toInt * 2 ^ 1074)

/-- R14: trunc16 rounds toward zero on values of magnitude at most 32767.0. -/
def Obligations.TruncationIsTowardZero : Prop :=
  ∀ (v : F64) (u : Int), F64.units? v = some u → |u| ≤ 32767 * 2 ^ 1074 →
    (F64.trunc16 v).toInt = u.tdiv (2 ^ 1074)

/-- R116 and R190: DESIGN at the default parameters computes exactly the spec's values, which are the ones the
machine uses. -/
def Obligations.DesignAtTheDefaultsIsTheTable : Prop :=
  design hwParams = hw.design ∧
  hw.design.bpfMark.a = [F64.ofBits 0x3FA28A696702F540, F64.ofBits 0x3F5328359B6BA584, F64.ofBits 0xBFA323AB13DE5260] ∧
  hw.design.bpfMark.b = [F64.ofBits 0x3FEBF73FA33F15AE, F64.ofBits 0xBFEDA51EB851EB86] ∧
  hw.design.bpfSpace.a = [F64.ofBits 0x3FA2C5F30F0CFD30, F64.ofBits 0x3F31172E63A69E54, F64.ofBits 0xBFA2E8216BD44A70] ∧
  hw.design.bpfSpace.b = [F64.ofBits 0x3FD345D160920389, F64.ofBits 0xBFEDA51EB851EB86] ∧
  hw.design.lpfMark.a = [F64.ofBits 0x3FA3B76E42850A60] ∧ hw.design.lpfMark.b = [F64.ofBits 0x3FEEC4891BD7AF5A] ∧
  hw.design.lpfSpace = hw.design.lpfMark ∧
  hw.design.incMark = F64.ofBits 0x3FF197C987C952C4 ∧ hw.design.incSpace = F64.ofBits 0x3FF69E9565708EFC

/-! ## Filters and the detector -/

/-- R111, R120: for any coefficient vectors and any inputs, from histories of 0.0, each output of FILTER_STEP is the
difference equation on the current and the prior `n - 1` inputs and the prior `m` outputs: from 0.0, each product
added in turn, the feed-forward terms first, each operation rounded; inputs and outputs before the first step are
0.0. -/
def Obligations.FilterIsItsDifferenceEquation : Prop :=
  ∀ (k : Coeffs) (xs : List F64) (t : Nat), t < xs.length →
    let zero : F64 := .num false 0 0
    let ys := filterOutputs k (Filter.reset k.a.length k.b.length) xs
    let forward := (List.range k.a.length).foldl
      (fun acc i => acc.add ((k.a.getD i zero).mul (if i ≤ t then xs.getD (t - i) zero else zero))) zero
    ys.length = xs.length ∧
    ys.getD t zero = (List.range k.b.length).foldl
      (fun acc j => acc.add ((k.b.getD j zero).mul (if j + 1 ≤ t then ys.getD (t - 1 - j) zero else zero))) forward

/-- R134, R135: mark if and only if the NRZ value is above zero, a zero of either sign and a NaN being space; start
if and only if it is below the negated threshold, strictly, whatever the threshold, which here is 2000.0. -/
def Obligations.MarkAndStartDecisions : Prop :=
  (∀ nrz, isMark nrz = true ↔ ∃ u, F64.orderKey nrz = some u ∧ 0 < u) ∧
  (∀ (c : Cfg) (nrz : F64), isStart c nrz = true ↔
    ∃ u t, F64.orderKey nrz = some u ∧ F64.orderKey c.params.startThreshold = some t ∧ u < -t) ∧
  F64.orderKey hw.params.startThreshold = some (2000 * 2 ^ 1074)

/-- R137: from the reset state any run of zero samples gives an NRZ value of exactly 0.0 on every sample, and the
demodulator stays in AWAIT and emits nothing. -/
def Obligations.SilenceNeverStartsAFrame : Prop :=
  ∀ n : Nat,
    let s := runSamples (List.replicate n 0) State.reset
    (detect hw (sampleValue 0) (coordTick s)).2 = F64.zero ∧ s.rxPhase = .await ∧ s.trace = []

/-! ## The receive path -/

/-- R131 to R133, R150: RX_SAMPLE, and the SAMPLE line, when the capture path runs and no shutdown waits at a block
boundary: the guard ticks, the four filters run with full-wave rectification between them, the demodulator takes
`em - es`, and the block position advances. The fields of the transmit path, the queue and the ports are
unchanged. -/
def Obligations.RxSampleTicksDetectsAndDemodulates : Prop :=
  ∀ (s : State) (v : Sample), s.rxState = .run → ¬ (s.shutdownReq = true ∧ s.rxBlockPos = 0) →
    ∃ t, exec (.rxSample v) s = .next t ∧ exec (.sample v) s = .next t ∧
      (let m := filterStep hw.design.bpfMark s.bpfMark (sampleValue v)
       let sp := filterStep hw.design.bpfSpace s.bpfSpace (sampleValue v)
       let em := filterStep hw.design.lpfMark s.lpfMark m.2.abs
       let es := filterStep hw.design.lpfSpace s.lpfSpace sp.2.abs
       let seen := { coordTick s with bpfMark := m.1, bpfSpace := sp.1, lpfMark := em.1, lpfSpace := es.1 }
       t = { demod hw (em.2.sub es.2) seen with rxBlockPos := (s.rxBlockPos + 1) % 2048 }) ∧
      sameTransmitter s t ∧ t.rxState = .run ∧ t.capCause = s.capCause

/-- R151, R162: a sample on which the receiver is suppressed emits nothing, whatever it is, and leaves the
demodulator in AWAIT with its fields cleared and its shift mode as it was. -/
def Obligations.SuppressedSampleEmitsNothing : Prop :=
  ∀ (s : State) (v : Sample), s.rxState = .run → ¬ (s.shutdownReq = true ∧ s.rxBlockPos = 0) →
    s.suppress = true → ¬ (s.guardArmed = true ∧ s.guardCount ≤ 1) →
    ∃ t, exec (.rxSample v) s = .next t ∧ t.trace = s.trace ∧ t.rxPhase = .await ∧ t.rxTimer = 0 ∧
      t.rxBitidx = 0 ∧ t.rxWord = 0 ∧ t.rxShift = s.rxShift ∧ t.suppress = true

/-- R153: in AWAIT, not suppressed, START loads the timer with 265 and clears index and word; anything else changes
nothing. -/
def Obligations.AwaitStartsAFrameOnStart : Prop :=
  ∀ (c : Cfg) (nrz : F64) (s : State), s.suppress = false → s.rxPhase = .await →
    demod c nrz s =
      if isStart c nrz then { s with rxPhase := .framing, rxTimer := 265, rxBitidx := 0, rxWord := 0 } else s

/-- R154 to R157: in FRAMING, not suppressed, the timer runs down; on the sample where it reaches 0 it reloads 177
and the tone decision is the next data bit, least significant first, or the stop bit, where mark decodes the word
and space is a framing error, both clearing the demodulator. -/
def Obligations.FramingSamplesBitsAtMidCell : Prop :=
  ∀ (c : Cfg) (nrz : F64) (s : State), s.suppress = false → s.rxPhase = .framing → 1 ≤ s.rxTimer →
    (2 ≤ s.rxTimer → demod c nrz s = { s with rxTimer := s.rxTimer - 1 }) ∧
    (s.rxTimer = 1 → s.rxBitidx < 5 →
      ∃ w : Code, (∀ b < 5, w.getLsbD b = (s.rxWord.getLsbD b || (isMark nrz && decide (b = s.rxBitidx)))) ∧
        demod c nrz s = { s with rxTimer := 177, rxWord := w, rxBitidx := s.rxBitidx + 1 }) ∧
    (s.rxTimer = 1 → 5 ≤ s.rxBitidx → isMark nrz = true → demod c nrz s = rxClear (decodeCharacter c s.rxWord s)) ∧
    (s.rxTimer = 1 → 5 ≤ s.rxBitidx → isMark nrz = false →
      demod c nrz s =
        { s with
          trace := s.trace ++ [.framingError s.rxWord], rxPhase := .await, rxTimer := 0, rxBitidx := 0, rxWord := 0 })

/-- R159: once a frame has started and nothing suppresses it, data bit `k` is decided 265 + 177 k samples after the
start and the stop bit 1150 samples after it; the word assembled from those decisions, and no other NRZ value, is
decoded or dropped there, and the demodulator is back in AWAIT. `nrz n` is the value of the sample `n + 1` after
the start. -/
def Obligations.FrameIsDecidedAtTheSamplingInstants : Prop :=
  ∀ (c : Cfg) (nrz : Nat → F64) (s : State), s.suppress = false → s.rxPhase = .framing → s.rxTimer = 265 →
    s.rxBitidx = 0 → s.rxWord = 0 →
    ∃ w : Code, (∀ k < 5, w.getLsbD k = isMark (nrz (264 + 177 * k))) ∧
      (∀ n < 1150, (demodRun c ((List.range n).map nrz) s).rxPhase = .framing) ∧
      demodRun c ((List.range 1150).map nrz) s =
        rxClear (if isMark (nrz 1149) then decodeCharacter c w s else emit (.framingError w) s)

/-- R262: RX_HALT, and a SAMPLE line in its place: the capture path halts, nothing else changes, and the demodulator
fields keep their values. -/
def Obligations.RxHaltStopsTheCapturePath : Prop :=
  ∀ (s : State) (v : Sample), s.rxState = .run → s.shutdownReq = true → s.rxBlockPos = 0 →
    exec .rxHalt s = .next { s with rxState := .halted } ∧ exec (.sample v) s = .next { s with rxState := .halted }

/-! ## The transmit path -/

/-- R181 with R221: TX_WAKE, and any TXTICK in its place. -/
def Obligations.TxWakeStartsSending : Prop :=
  ∀ (s : State) (resp : PlayResp) (drained : Bool), s.txState = .idle → s.shutdownReq = false → s.queue ≠ [] →
    ∃ t, t = { s with
        sending := true, trace := s.trace ++ [.sendingChanged true], guardArmed := false, guardCount := 0
        suppress := true, txState := .sending } ∧
      exec .txWake s = .next t ∧ exec (.txtick resp drained) s = .next t

/-- R182 to R185: TX_LOAD, and any TXTICK in its place: a pending code is framed; an empty queue gives DRAINING; a
character is taken and framed, a shift code first when its selector differs; an unmapped character is skipped. -/
def Obligations.TxLoadFramesTheNextCode : Prop :=
  ∀ (s : State) (resp : PlayResp) (drained : Bool), s.txState = .sending → s.txFrame = none → s.shutdownReq = false →
    ∃ t, exec .txLoad s = .next t ∧ exec (.txtick resp drained) s = .next t ∧
      (∀ code rest, s.txPending = code :: rest → t = { s with txPending := rest, txFrame := some ⟨code, 0, 0⟩ }) ∧
      (s.txPending = [] → s.queue = [] → t = { s with txState := .draining }) ∧
      (∀ ch rest, s.txPending = [] → s.queue = ch :: rest →
        (rev hw.params ch = none → t = { s with queue := rest, trace := s.trace ++ [.skipped ch] }) ∧
        (∀ k, rev hw.params ch = some (k, s.txShift) → t = { s with queue := rest, txFrame := some ⟨k, 0, 0⟩ }) ∧
        (∀ k sel, rev hw.params ch = some (k, sel) → sel ≠ s.txShift →
          t = { s with
            queue := rest, txShift := sel, txPending := [k]
            txFrame := some ⟨if sel = .figs then 0x1B else 0x1F, 0, 0⟩ }))

/-- R186, R189, R191: TX_SAMPLE with ACCEPT, and TXTICK ACCEPT in its place: one sample from the phase before the
increment, the phase advanced by the cell's tone and wrapped once, and the frame one sample further. -/
def Obligations.TxSampleAcceptPutsOutOneSample : Prop :=
  ∀ (s : State) (f : TxFrame) (drained : Bool), s.txState = .sending → s.txFrame = some f →
    let mark : Bool := if f.cell.val = 0 then false else if f.cell.val = 6 then true else f.code.getLsbD (f.cell.val - 1)
    let out := F64.trunc16 (Config.amplitude.mul (Trans.sin s.phi))
    let sum := s.phi.add (if mark then hw.design.incMark else hw.design.incSpace)
    ∃ t, exec (.txSample .accept) s = .next t ∧ exec (.txtick .accept drained) s = .next t ∧
      t = { s with
        phi := if sum.ge Config.twoPi then sum.sub Config.twoPi else sum
        playSample := out, trace := s.trace ++ [.sample out], txFrame := t.txFrame } ∧
      (f.smp + 1 ≠ 177 → t.txFrame = some { f with smp := f.smp + 1 }) ∧
      (f.smp + 1 = 177 → f.cell.val = 6 → t.txFrame = none) ∧
      (f.smp + 1 = 177 → f.cell.val ≠ 6 →
        ∃ g, t.txFrame = some g ∧ g.code = f.code ∧ g.cell.val = f.cell.val + 1 ∧ g.smp = 0)

/-- R186, R243, R244, R249(d): a STALL takes the fault entry with cause 3, `Error(3)` before
`SendingChanged(false)`; the frame and the pending codes are dropped, the guard is armed, and the phase, the shift
mode and the queue stay. No sample is produced. -/
def Obligations.TxSampleStallFaultsThePath : Prop :=
  ∀ (s : State) (f : TxFrame) (drained : Bool), s.txState = .sending → s.txFrame = some f →
    ∃ t, exec (.txSample .stall) s = .next t ∧ exec (.txtick .stall drained) s = .next t ∧
      (s.sending = true →
        t = { s with
          playCause := 3, trace := s.trace ++ [.error 3, .sendingChanged false], txFrame := none, txPending := []
          sending := false, guardArmed := true, guardCount := 4096, txState := .fault }) ∧
      (s.sending = false →
        t = { s with
          playCause := 3, trace := s.trace ++ [.error 3], txFrame := none, txPending := [], txState := .fault })

/-- R186, R245, R279: under a BUSY answer no TX step is enabled, so TXTICK changes nothing and the same sample stays
offered; the reserved value of `play_resp` is treated as BUSY. That TX_SAMPLE presented by name is then refused is log
entry 8, and that TXTICK with the reserved response, which R98 gives no word, does what BUSY does is log entry 18. -/
def Obligations.BusyAnswerHoldsTheSample : Prop :=
  ∀ (s : State) (f : TxFrame) (resp : PlayResp) (drained : Bool), s.txState = .sending → s.txFrame = some f →
    resp = .busy ∨ resp = .reserved →
    exec (.txtick resp drained) s = .next s ∧ exec (.txSample resp) s = .refused (.notEnabled "TX_SAMPLE") ∧
      offeredSample hw s = some (F64.trunc16 (Config.amplitude.mul (Trans.sin s.phi)))

/-- R187: TX_RESUME, and any TXTICK in its place, whatever the drained indication. -/
def Obligations.TxResumeContinuesTheTransmission : Prop :=
  ∀ (s : State) (resp : PlayResp) (drained : Bool), s.txState = .draining → s.shutdownReq = false → s.queue ≠ [] →
    exec .txResume s = .next { s with txState := .sending } ∧
    exec (.txtick resp drained) s = .next { s with txState := .sending }

/-- R188 with R222 under the guarded policy: TX_STOP, and TXTICK with drained 1 in its place; with drained 0 the path
waits. -/
def Obligations.TxStopArmsTheGuard : Prop :=
  ∀ (s : State) (resp : PlayResp), s.txState = .draining → s.shutdownReq = false → s.queue = [] →
    ∃ t, t = { s with
        sending := false, trace := s.trace ++ [.sendingChanged false], guardArmed := true, guardCount := 4096
        txState := .idle } ∧
      exec (.txStop true) s = .next t ∧ exec (.txtick resp true) s = .next t ∧
      exec (.txtick resp false) s = .next s

/-- R263 with R244: TX_HALT at a frame boundary, and any TXTICK in its place. -/
def Obligations.TxHaltLeavesService : Prop :=
  ∀ (s : State) (resp : PlayResp) (drained : Bool), s.shutdownReq = true →
    (s.txState = .idle ∨ s.txState = .draining ∨ (s.txState = .sending ∧ s.txFrame = none)) →
    ∃ t, exec .txHalt s = .next t ∧ exec (.txtick resp drained) s = .next t ∧
      (s.sending = true →
        t = { s with
          txFrame := none, txPending := [], sending := false, trace := s.trace ++ [.sendingChanged false]
          guardArmed := true, guardCount := 4096, txState := .halted }) ∧
      (s.sending = false → t = { s with txFrame := none, txPending := [], txState := .halted })

/-- R81, R193(a): a frame is exactly 1239 accepted samples: after `n` of them the frame stands in cell `n / 177` at
sample `n mod 177`, and after 1239 it is complete, with 1239 samples put out and nothing else emitted. -/
def Obligations.FrameIsExactly1239Samples : Prop :=
  ∀ (s : State) (code : Code) (drained : Bool), s.txState = .sending → s.txFrame = some ⟨code, 0, 0⟩ →
    (∀ n < 1239, ∃ f, (acceptedTicks drained n s).txFrame = some f ∧ f.code = code ∧ f.cell.val = n / 177 ∧
      f.smp = n % 177) ∧
    (acceptedTicks drained 1239 s).txFrame = none ∧ (acceptedTicks drained 1239 s).txState = .sending ∧
    ∃ vs : List Sample, vs.length = 1239 ∧ (acceptedTicks drained 1239 s).trace = s.trace ++ vs.map .sample

/-- R72, R97, R193(d), R283: when the playback device always accepts and reports drained, and nothing else moves, every
transmission ends: TXRUN (R97) from IDLE with text queued comes back to IDLE with the queue empty. The bound on the
number of ticks, within which it does so, is the model's (log entry 20). -/
def Obligations.EveryTransmissionEnds : Prop :=
  ∀ s : State, sound s → s.txState = .idle → s.shutdownReq = false → s.queue ≠ [] →
    let t := txrunTicks false (txrunBound s) s
    t.txState = .idle ∧ t.queue = [] ∧ t.sending = false ∧ t.guardCount = 4096

/-- R191: a synthesized sample is at most 32767 in magnitude; -32768 is never produced. -/
def Obligations.SynthesizedSampleIsInRange : Prop :=
  ∀ s : State, phaseInRange s.phi → |(synthSample hw s).toInt| ≤ 32767

/-! ## The coordinator -/

/-- R223, R225(b): a guard with count `n` lets exactly the next `n - 1` samples be suppressed, whatever they are, and
clears `suppress` on the `n`-th. -/
def Obligations.GuardExpiresAfterItsCount : Prop :=
  ∀ (vs : List Sample) (s : State), s.rxState = .run → s.shutdownReq = false → s.suppress = true →
    s.guardArmed = true → 1 ≤ s.guardCount →
    (vs.length < s.guardCount →
      (runSamples vs s).suppress = true ∧ (runSamples vs s).guardArmed = true ∧
        (runSamples vs s).guardCount = s.guardCount - vs.length) ∧
    (s.guardCount ≤ vs.length →
      (runSamples vs s).suppress = false ∧ (runSamples vs s).guardArmed = false ∧ (runSamples vs s).guardCount = 0)

/-- R226: no stale guard clears the flag: after a TX_WAKE, with or without a guard pending before it, any number of
samples leaves reception suppressed, and emits nothing, while the transmission lasts. -/
def Obligations.NoStaleGuardAfterWake : Prop :=
  ∀ (vs : List Sample) (s t : State), exec .txWake s = .next t →
    (runSamples vs t).suppress = true ∧ (runSamples vs t).sending = true ∧ (runSamples vs t).trace = t.trace

/-- R222, R224: under the immediate policy TX_STOP clears `suppress` itself and arms no guard, in any
configuration. -/
def Obligations.ImmediatePolicyClearsAtOnce : Prop :=
  ∀ (c : Cfg) (s : State), c.params.guardSamples = 0 →
    txStopStep c s =
      { s with
        sending := false, trace := s.trace ++ [.sendingChanged false], suppress := false, txState := .idle }

/-- R225(d), on this hardware: but for RESET, `suppress` is set only by a TX_WAKE and cleared only by the expiry of
a guard in a sample. -/
def Obligations.SuppressChangesOnlyByWakeAndExpiry : Prop :=
  ∀ (i : Instr) (s t : State), exec i s = .next t → performsReset i = false →
    (s.suppress = false → t.suppress = true → performsTransmit i = true ∧ s.txState = .idle ∧ t.sending = true) ∧
    (s.suppress = true → t.suppress = false →
      performsReceive i = true ∧ s.guardArmed = true ∧ s.guardCount ≤ 1)

/-- R162, R225(a): while the block sends, no instruction of any agent emits a received character. RESET, which
clears the trace, is apart. -/
def Obligations.NoCharacterWhileSending : Prop :=
  ∀ (i : Instr) (s t : State), sound s → s.sending = true → exec i s = .next t → performsReset i = false →
    receivedCharacters t.trace = receivedCharacters s.trace

/-! ## Faults, reset, shutdown -/

/-- R22, R270: RESET, as a line and as an operation, from any state: every field at the value of R22's reset column,
written out here, and the two faults in their order. The model's own fields have a statement of their own below. -/
def Obligations.ResetGivesTheResetValues : Prop :=
  ∀ (s : State) (capOk playOk : Bool),
    let zero : F64 := .num false 0 0
    ∃ t, exec (.reset capOk playOk) s = .next t ∧ exec (.opReset capOk playOk) s = .next t ∧
      t = {
        bpfMark := ⟨[zero, zero, zero], [zero, zero]⟩
        bpfSpace := ⟨[zero, zero, zero], [zero, zero]⟩
        lpfMark := ⟨[zero], [zero]⟩
        lpfSpace := ⟨[zero], [zero]⟩
        rxPhase := .await, rxTimer := 0, rxBitidx := 0, rxWord := 0, rxShift := .ltrs
        rxState := if capOk then .run else .fault
        rxBlockPos := 0, suppress := false, guardArmed := false, guardCount := 0
        txState := if playOk then .idle else .fault
        txShift := .ltrs, sending := false, phi := zero, txPending := [], txFrame := none, queue := []
        capCause := if capOk then 0 else 1
        playCause := if playOk then 0 else 2
        shutdownReq := false
        trace := (if capOk then [] else [.error 1]) ++ (if playOk then [] else [.error 2])
        hostAccept := t.hostAccept, playSample := t.playSample, capHeld := t.capHeld, capSample := t.capSample
        stim := t.stim }

/-- The model's choice, no rule of the spec's (log entries 5, 6, 9, 10 and 14): RESET drops a held byte of a capture
stream and an offered sample, and leaves the schedule and the two output ports as they are. -/
def Obligations.ResetKeepsTheScheduleAndThePorts : Prop :=
  ∀ (s t : State) (capOk playOk : Bool),
    exec (.reset capOk playOk) s = .next t ∨ exec (.opReset capOk playOk) s = .next t →
    t.stim = s.stim ∧ t.hostAccept = s.hostAccept ∧ t.playSample = s.playSample ∧ t.capHeld = none ∧
    t.capSample = none

/-- R29, R33, R250: FAULT and HALTED are left only by RESET, on either path, whatever the instruction. -/
def Obligations.FaultAndHaltLastUntilReset : Prop :=
  ∀ (i : Instr) (s t : State), exec i s = .next t → performsReset i = false →
    (s.rxState = .fault → t.rxState = .fault) ∧ (s.rxState = .halted → t.rxState = .halted) ∧
    (s.txState = .fault → t.txState = .fault) ∧ (s.txState = .halted → t.txState = .halted)

/-- R40: the causes hold the failure that put their path into FAULT, or 0; a cause code is written once and cleared
only by RESET. -/
def Obligations.CauseCodesLastUntilReset : Prop :=
  ∀ (i : Instr) (s t : State), sound s → exec i s = .next t →
    (t.rxState = .fault ↔ t.capCause ≠ 0) ∧ (t.txState = .fault ↔ t.playCause ≠ 0) ∧
    (performsReset i = false →
      t.capCause = s.capCause ∧ (s.playCause ≠ 0 → t.playCause = s.playCause) ∧
      (t.playCause = s.playCause ∨ t.playCause = 3))

/-- R261: SHUTDOWN, as a line and as an operation, latches the request and changes nothing else; at once TX_WAKE,
TX_LOAD, TX_RESUME and TX_STOP are disabled; a second SHUTDOWN changes nothing. -/
def Obligations.ShutdownLatchesTheRequest : Prop :=
  ∀ s : State, ∃ t, t = { s with shutdownReq := true } ∧
    exec .shutdown s = .next t ∧ exec .opShutdown s = .next t ∧ exec .shutdown t = .next t ∧
    txWakeEnabled t = false ∧ txLoadEnabled t = false ∧ txResumeEnabled t = false ∧
    (∀ drained, txStopEnabled drained t = false)

/-- R41, R45: the request is set only by SHUTDOWN and cleared only by RESET. -/
def Obligations.ShutdownRequestLastsUntilReset : Prop :=
  ∀ (i : Instr) (s t : State), exec i s = .next t → performsReset i = false →
    (s.shutdownReq = true → t.shutdownReq = true) ∧
    (s.shutdownReq = false → t.shutdownReq = true → i = .shutdown ∨ i = .opShutdown)

/-! ## The host and the agents' fields -/

/-- R180: HOST_ENQ appends a whole text in one step on this hardware, whatever the state, and PUSH is the text of one
character; nothing else changes but the accept port. In a configuration with a finite queue a text that fits is
appended whole, and one that does not is refused on `host_accept` with the queue unchanged. -/
def Obligations.HostEnqTakesAllOrNothing : Prop :=
  (∀ (s : State) (text : List Char8) (ch : Char8),
    exec (.hostEnq text) s = .next { s with queue := s.queue ++ text, hostAccept := true } ∧
    exec (.push ch) s = .next { s with queue := s.queue ++ [ch], hostAccept := true }) ∧
  (∀ (c : Cfg) (depth : Nat) (text : List Char8) (s : State), c.params.queueDepth = some depth →
    (s.queue.length + text.length ≤ depth →
      hostEnqStep c text s = { s with queue := s.queue ++ text, hostAccept := true }) ∧
    (depth < s.queue.length + text.length → hostEnqStep c text s = { s with hostAccept := false }))

/-- R22, R68: no step of agent RX writes a field of the transmit path or the queue, and no step of agent TX writes a
field of the receive path or adds to the queue; TX takes at most its head. -/
def Obligations.AgentsKeepToTheirFields : Prop :=
  ∀ (i : Instr) (s t : State), exec i s = .next t →
    (performsReceive i = true → sameTransmitter s t) ∧
    (performsTransmit i = true →
      sameReceiver s t ∧ (t.queue = s.queue ∨ ∃ ch, s.queue = ch :: t.queue))

/-- R36, R192: but for RESET, the phase changes only in a step that puts out a sample. -/
def Obligations.PhaseChangesOnlyWithASample : Prop :=
  ∀ (i : Instr) (s t : State), exec i s = .next t → performsReset i = false →
    t.phi = s.phi ∨ ∃ v, t.trace = s.trace ++ [.sample v]

/-- R42, R246: but for RESET, the trace only grows, by at most two events a step, and never by more than one
received character. -/
def Obligations.TraceOnlyGrows : Prop :=
  ∀ (i : Instr) (s t : State), exec i s = .next t → performsReset i = false →
    ∃ new : List Event, t.trace = s.trace ++ new ∧ new.length ≤ 2 ∧ (receivedCharacters new).length ≤ 1

/-! ## Invariants -/

/-- R48 (a) to (f) and (h), with R23, R30 and R40: every step, of any agent under any schedule, keeps the invariant,
from every state that has it. -/
def Obligations.EveryStepKeepsTheInvariants : Prop :=
  ∀ s t : State, sound s → step s = .next t → sound t

/-- The reset state has the invariants, and it is what RESET 1, 1 leaves of it (log entry 11). -/
def Obligations.ResetStateHasTheInvariants : Prop :=
  sound State.reset ∧ phaseInRange State.reset.phi ∧ exec (.reset true true) State.reset = .next State.reset

/-- R48(g): every step keeps the phase in [0, 2 pi). -/
def Obligations.EveryStepKeepsThePhaseInRange : Prop :=
  ∀ s t : State, phaseInRange s.phi → step s = .next t → phaseInRange t.phi
end

