-- ==== Sys2Proof/Laws/Float.lean ====
section
/-! SUPPORT. Small laws of the binary64 values: signs, negation, and the order. -/

namespace Sys2Proof.F64

theorem signed_not (s : Bool) (m : Nat) : signed (!s) m = -signed s m := by
  cases s <;> simp only [signed, Bool.not_true, Bool.not_false, if_true, Bool.false_eq_true, if_false, neg_neg]

theorem natAbs_signed (s : Bool) (m : Nat) : (signed s m).natAbs = m := by
  cases s <;> simp only [signed, if_true, Bool.false_eq_true, if_false, Int.natAbs_neg, Int.natAbs_natCast]

/-- Negation negates the exact value. -/
theorem units?_neg (v : F64) : units? v.neg = (units? v).map (fun u => -u) := by
  cases v with
  | nan => rfl
  | inf s => rfl
  | num s e f => exact congrArg some (signed_not s (magOf e f))

/-- Negation reverses the place in the order. -/
theorem orderKey_neg (v : F64) : orderKey v.neg = (orderKey v).map (fun u => -u) := by
  cases v with
  | nan => rfl
  | inf s => exact congrArg some (signed_not s _)
  | num s e f => exact congrArg some (signed_not s (magOf e f))

/-- A finite value's place in the order is its exact value. -/
theorem orderKey_of_units (v : F64) (u : Int) (h : units? v = some u) : orderKey v = some u := by
  cases v with
  | nan => cases h
  | inf s => cases h
  | num s e f => exact h

/-- `<` compares places in the order, and is false on a NaN. -/
theorem lt_iff (a b : F64) : a.lt b = true ↔ ∃ x y, orderKey a = some x ∧ orderKey b = some y ∧ x < y := by
  unfold lt
  cases ha : orderKey a <;> cases hb : orderKey b <;> simp

/-- `>=` compares places in the order, and is false on a NaN. -/
theorem ge_iff (a b : F64) : a.ge b = true ↔ ∃ x y, orderKey a = some x ∧ orderKey b = some y ∧ y ≤ x := by
  unfold ge
  cases ha : orderKey a <;> cases hb : orderKey b <;> simp

/-- A sum of finite values with a sum other than zero is rounded once. -/
theorem add_of_ne_zero (a b : F64) (x y : Int) (ha : units? a = some x) (hb : units? b = some y) (h : x + y ≠ 0) :
    a.add b = roundTo (decide (x + y < 0)) (x + y).natAbs 0 := by
  cases a with
  | nan => cases ha
  | inf s => cases ha
  | num s e f =>
    cases b with
    | nan => cases hb
    | inf t => cases hb
    | num t g k =>
      cases ha; cases hb
      simp only [add, if_neg h]

/-- A sum of finite values with sum zero is a zero. -/
theorem units?_add_of_eq_zero (a b : F64) (x y : Int) (ha : units? a = some x) (hb : units? b = some y)
    (h : x + y = 0) : units? (a.add b) = some 0 := by
  cases a with
  | nan => cases ha
  | inf s => cases ha
  | num s e f =>
    cases b with
    | nan => cases hb
    | inf t => cases hb
    | num t g k =>
      cases ha; cases hb
      simp only [add, if_pos h, units?]
      cases s <;> cases t <;> rfl

end Sys2Proof.F64
end

