-- ==== Sys2Proof/Laws/State.lean ====
section
/-! SUPPORT. What each operation leaves in each field: one lemma per field and update, so that no later proof
unfolds a record update. A field an operation may change in more than one way has its cases in Laws/Ops.lean. -/

namespace Sys2Proof.Machine

open Config (Cfg)

/-! ## emit -/

@[simp] theorem emit_bpfMark (e : Event) (s : State) : (emit e s).bpfMark = s.bpfMark := rfl
@[simp] theorem emit_bpfSpace (e : Event) (s : State) : (emit e s).bpfSpace = s.bpfSpace := rfl
@[simp] theorem emit_lpfMark (e : Event) (s : State) : (emit e s).lpfMark = s.lpfMark := rfl
@[simp] theorem emit_lpfSpace (e : Event) (s : State) : (emit e s).lpfSpace = s.lpfSpace := rfl
@[simp] theorem emit_rxPhase (e : Event) (s : State) : (emit e s).rxPhase = s.rxPhase := rfl
@[simp] theorem emit_rxTimer (e : Event) (s : State) : (emit e s).rxTimer = s.rxTimer := rfl
@[simp] theorem emit_rxBitidx (e : Event) (s : State) : (emit e s).rxBitidx = s.rxBitidx := rfl
@[simp] theorem emit_rxWord (e : Event) (s : State) : (emit e s).rxWord = s.rxWord := rfl
@[simp] theorem emit_rxShift (e : Event) (s : State) : (emit e s).rxShift = s.rxShift := rfl
@[simp] theorem emit_rxState (e : Event) (s : State) : (emit e s).rxState = s.rxState := rfl
@[simp] theorem emit_rxBlockPos (e : Event) (s : State) : (emit e s).rxBlockPos = s.rxBlockPos := rfl
@[simp] theorem emit_suppress (e : Event) (s : State) : (emit e s).suppress = s.suppress := rfl
@[simp] theorem emit_guardArmed (e : Event) (s : State) : (emit e s).guardArmed = s.guardArmed := rfl
@[simp] theorem emit_guardCount (e : Event) (s : State) : (emit e s).guardCount = s.guardCount := rfl
@[simp] theorem emit_txState (e : Event) (s : State) : (emit e s).txState = s.txState := rfl
@[simp] theorem emit_txShift (e : Event) (s : State) : (emit e s).txShift = s.txShift := rfl
@[simp] theorem emit_sending (e : Event) (s : State) : (emit e s).sending = s.sending := rfl
@[simp] theorem emit_phi (e : Event) (s : State) : (emit e s).phi = s.phi := rfl
@[simp] theorem emit_txPending (e : Event) (s : State) : (emit e s).txPending = s.txPending := rfl
@[simp] theorem emit_txFrame (e : Event) (s : State) : (emit e s).txFrame = s.txFrame := rfl
@[simp] theorem emit_queue (e : Event) (s : State) : (emit e s).queue = s.queue := rfl
@[simp] theorem emit_capCause (e : Event) (s : State) : (emit e s).capCause = s.capCause := rfl
@[simp] theorem emit_playCause (e : Event) (s : State) : (emit e s).playCause = s.playCause := rfl
@[simp] theorem emit_shutdownReq (e : Event) (s : State) : (emit e s).shutdownReq = s.shutdownReq := rfl
@[simp] theorem emit_trace (e : Event) (s : State) : (emit e s).trace = s.trace ++ [e] := rfl
@[simp] theorem emit_hostAccept (e : Event) (s : State) : (emit e s).hostAccept = s.hostAccept := rfl
@[simp] theorem emit_playSample (e : Event) (s : State) : (emit e s).playSample = s.playSample := rfl
@[simp] theorem emit_capHeld (e : Event) (s : State) : (emit e s).capHeld = s.capHeld := rfl
@[simp] theorem emit_capSample (e : Event) (s : State) : (emit e s).capSample = s.capSample := rfl
@[simp] theorem emit_stim (e : Event) (s : State) : (emit e s).stim = s.stim := rfl

/-! ## coordStart -/

@[simp] theorem coordStart_bpfMark (s : State) : (coordStart s).bpfMark = s.bpfMark := rfl
@[simp] theorem coordStart_bpfSpace (s : State) : (coordStart s).bpfSpace = s.bpfSpace := rfl
@[simp] theorem coordStart_lpfMark (s : State) : (coordStart s).lpfMark = s.lpfMark := rfl
@[simp] theorem coordStart_lpfSpace (s : State) : (coordStart s).lpfSpace = s.lpfSpace := rfl
@[simp] theorem coordStart_rxPhase (s : State) : (coordStart s).rxPhase = s.rxPhase := rfl
@[simp] theorem coordStart_rxTimer (s : State) : (coordStart s).rxTimer = s.rxTimer := rfl
@[simp] theorem coordStart_rxBitidx (s : State) : (coordStart s).rxBitidx = s.rxBitidx := rfl
@[simp] theorem coordStart_rxWord (s : State) : (coordStart s).rxWord = s.rxWord := rfl
@[simp] theorem coordStart_rxShift (s : State) : (coordStart s).rxShift = s.rxShift := rfl
@[simp] theorem coordStart_rxState (s : State) : (coordStart s).rxState = s.rxState := rfl
@[simp] theorem coordStart_rxBlockPos (s : State) : (coordStart s).rxBlockPos = s.rxBlockPos := rfl
@[simp] theorem coordStart_suppress (s : State) : (coordStart s).suppress = true := rfl
@[simp] theorem coordStart_guardArmed (s : State) : (coordStart s).guardArmed = false := rfl
@[simp] theorem coordStart_guardCount (s : State) : (coordStart s).guardCount = 0 := rfl
@[simp] theorem coordStart_txState (s : State) : (coordStart s).txState = s.txState := rfl
@[simp] theorem coordStart_txShift (s : State) : (coordStart s).txShift = s.txShift := rfl
@[simp] theorem coordStart_sending (s : State) : (coordStart s).sending = s.sending := rfl
@[simp] theorem coordStart_phi (s : State) : (coordStart s).phi = s.phi := rfl
@[simp] theorem coordStart_txPending (s : State) : (coordStart s).txPending = s.txPending := rfl
@[simp] theorem coordStart_txFrame (s : State) : (coordStart s).txFrame = s.txFrame := rfl
@[simp] theorem coordStart_queue (s : State) : (coordStart s).queue = s.queue := rfl
@[simp] theorem coordStart_capCause (s : State) : (coordStart s).capCause = s.capCause := rfl
@[simp] theorem coordStart_playCause (s : State) : (coordStart s).playCause = s.playCause := rfl
@[simp] theorem coordStart_shutdownReq (s : State) : (coordStart s).shutdownReq = s.shutdownReq := rfl
@[simp] theorem coordStart_trace (s : State) : (coordStart s).trace = s.trace := rfl
@[simp] theorem coordStart_hostAccept (s : State) : (coordStart s).hostAccept = s.hostAccept := rfl
@[simp] theorem coordStart_playSample (s : State) : (coordStart s).playSample = s.playSample := rfl
@[simp] theorem coordStart_capHeld (s : State) : (coordStart s).capHeld = s.capHeld := rfl
@[simp] theorem coordStart_capSample (s : State) : (coordStart s).capSample = s.capSample := rfl
@[simp] theorem coordStart_stim (s : State) : (coordStart s).stim = s.stim := rfl

/-! ## coordStop -/

@[simp] theorem coordStop_bpfMark (c : Cfg) (s : State) : (coordStop c s).bpfMark = s.bpfMark := by
  unfold coordStop; split <;> rfl
@[simp] theorem coordStop_bpfSpace (c : Cfg) (s : State) : (coordStop c s).bpfSpace = s.bpfSpace := by
  unfold coordStop; split <;> rfl
@[simp] theorem coordStop_lpfMark (c : Cfg) (s : State) : (coordStop c s).lpfMark = s.lpfMark := by
  unfold coordStop; split <;> rfl
@[simp] theorem coordStop_lpfSpace (c : Cfg) (s : State) : (coordStop c s).lpfSpace = s.lpfSpace := by
  unfold coordStop; split <;> rfl
@[simp] theorem coordStop_rxPhase (c : Cfg) (s : State) : (coordStop c s).rxPhase = s.rxPhase := by
  unfold coordStop; split <;> rfl
@[simp] theorem coordStop_rxTimer (c : Cfg) (s : State) : (coordStop c s).rxTimer = s.rxTimer := by
  unfold coordStop; split <;> rfl
@[simp] theorem coordStop_rxBitidx (c : Cfg) (s : State) : (coordStop c s).rxBitidx = s.rxBitidx := by
  unfold coordStop; split <;> rfl
@[simp] theorem coordStop_rxWord (c : Cfg) (s : State) : (coordStop c s).rxWord = s.rxWord := by
  unfold coordStop; split <;> rfl
@[simp] theorem coordStop_rxShift (c : Cfg) (s : State) : (coordStop c s).rxShift = s.rxShift := by
  unfold coordStop; split <;> rfl
@[simp] theorem coordStop_rxState (c : Cfg) (s : State) : (coordStop c s).rxState = s.rxState := by
  unfold coordStop; split <;> rfl
@[simp] theorem coordStop_rxBlockPos (c : Cfg) (s : State) : (coordStop c s).rxBlockPos = s.rxBlockPos := by
  unfold coordStop; split <;> rfl
@[simp] theorem coordStop_txState (c : Cfg) (s : State) : (coordStop c s).txState = s.txState := by
  unfold coordStop; split <;> rfl
@[simp] theorem coordStop_txShift (c : Cfg) (s : State) : (coordStop c s).txShift = s.txShift := by
  unfold coordStop; split <;> rfl
@[simp] theorem coordStop_sending (c : Cfg) (s : State) : (coordStop c s).sending = s.sending := by
  unfold coordStop; split <;> rfl
@[simp] theorem coordStop_phi (c : Cfg) (s : State) : (coordStop c s).phi = s.phi := by
  unfold coordStop; split <;> rfl
@[simp] theorem coordStop_txPending (c : Cfg) (s : State) : (coordStop c s).txPending = s.txPending := by
  unfold coordStop; split <;> rfl
@[simp] theorem coordStop_txFrame (c : Cfg) (s : State) : (coordStop c s).txFrame = s.txFrame := by
  unfold coordStop; split <;> rfl
@[simp] theorem coordStop_queue (c : Cfg) (s : State) : (coordStop c s).queue = s.queue := by
  unfold coordStop; split <;> rfl
@[simp] theorem coordStop_capCause (c : Cfg) (s : State) : (coordStop c s).capCause = s.capCause := by
  unfold coordStop; split <;> rfl
@[simp] theorem coordStop_playCause (c : Cfg) (s : State) : (coordStop c s).playCause = s.playCause := by
  unfold coordStop; split <;> rfl
@[simp] theorem coordStop_shutdownReq (c : Cfg) (s : State) : (coordStop c s).shutdownReq = s.shutdownReq := by
  unfold coordStop; split <;> rfl
@[simp] theorem coordStop_trace (c : Cfg) (s : State) : (coordStop c s).trace = s.trace := by
  unfold coordStop; split <;> rfl
@[simp] theorem coordStop_hostAccept (c : Cfg) (s : State) : (coordStop c s).hostAccept = s.hostAccept := by
  unfold coordStop; split <;> rfl
@[simp] theorem coordStop_playSample (c : Cfg) (s : State) : (coordStop c s).playSample = s.playSample := by
  unfold coordStop; split <;> rfl
@[simp] theorem coordStop_capHeld (c : Cfg) (s : State) : (coordStop c s).capHeld = s.capHeld := by
  unfold coordStop; split <;> rfl
@[simp] theorem coordStop_capSample (c : Cfg) (s : State) : (coordStop c s).capSample = s.capSample := by
  unfold coordStop; split <;> rfl
@[simp] theorem coordStop_stim (c : Cfg) (s : State) : (coordStop c s).stim = s.stim := by
  unfold coordStop; split <;> rfl

/-! ## coordTick -/

@[simp] theorem coordTick_bpfMark (s : State) : (coordTick s).bpfMark = s.bpfMark := by
  unfold coordTick; repeat' split
  all_goals rfl
@[simp] theorem coordTick_bpfSpace (s : State) : (coordTick s).bpfSpace = s.bpfSpace := by
  unfold coordTick; repeat' split
  all_goals rfl
@[simp] theorem coordTick_lpfMark (s : State) : (coordTick s).lpfMark = s.lpfMark := by
  unfold coordTick; repeat' split
  all_goals rfl
@[simp] theorem coordTick_lpfSpace (s : State) : (coordTick s).lpfSpace = s.lpfSpace := by
  unfold coordTick; repeat' split
  all_goals rfl
@[simp] theorem coordTick_rxPhase (s : State) : (coordTick s).rxPhase = s.rxPhase := by
  unfold coordTick; repeat' split
  all_goals rfl
@[simp] theorem coordTick_rxTimer (s : State) : (coordTick s).rxTimer = s.rxTimer := by
  unfold coordTick; repeat' split
  all_goals rfl
@[simp] theorem coordTick_rxBitidx (s : State) : (coordTick s).rxBitidx = s.rxBitidx := by
  unfold coordTick; repeat' split
  all_goals rfl
@[simp] theorem coordTick_rxWord (s : State) : (coordTick s).rxWord = s.rxWord := by
  unfold coordTick; repeat' split
  all_goals rfl
@[simp] theorem coordTick_rxShift (s : State) : (coordTick s).rxShift = s.rxShift := by
  unfold coordTick; repeat' split
  all_goals rfl
@[simp] theorem coordTick_rxState (s : State) : (coordTick s).rxState = s.rxState := by
  unfold coordTick; repeat' split
  all_goals rfl
@[simp] theorem coordTick_rxBlockPos (s : State) : (coordTick s).rxBlockPos = s.rxBlockPos := by
  unfold coordTick; repeat' split
  all_goals rfl
@[simp] theorem coordTick_txState (s : State) : (coordTick s).txState = s.txState := by
  unfold coordTick; repeat' split
  all_goals rfl
@[simp] theorem coordTick_txShift (s : State) : (coordTick s).txShift = s.txShift := by
  unfold coordTick; repeat' split
  all_goals rfl
@[simp] theorem coordTick_sending (s : State) : (coordTick s).sending = s.sending := by
  unfold coordTick; repeat' split
  all_goals rfl
@[simp] theorem coordTick_phi (s : State) : (coordTick s).phi = s.phi := by
  unfold coordTick; repeat' split
  all_goals rfl
@[simp] theorem coordTick_txPending (s : State) : (coordTick s).txPending = s.txPending := by
  unfold coordTick; repeat' split
  all_goals rfl
@[simp] theorem coordTick_txFrame (s : State) : (coordTick s).txFrame = s.txFrame := by
  unfold coordTick; repeat' split
  all_goals rfl
@[simp] theorem coordTick_queue (s : State) : (coordTick s).queue = s.queue := by
  unfold coordTick; repeat' split
  all_goals rfl
@[simp] theorem coordTick_capCause (s : State) : (coordTick s).capCause = s.capCause := by
  unfold coordTick; repeat' split
  all_goals rfl
@[simp] theorem coordTick_playCause (s : State) : (coordTick s).playCause = s.playCause := by
  unfold coordTick; repeat' split
  all_goals rfl
@[simp] theorem coordTick_shutdownReq (s : State) : (coordTick s).shutdownReq = s.shutdownReq := by
  unfold coordTick; repeat' split
  all_goals rfl
@[simp] theorem coordTick_trace (s : State) : (coordTick s).trace = s.trace := by
  unfold coordTick; repeat' split
  all_goals rfl
@[simp] theorem coordTick_hostAccept (s : State) : (coordTick s).hostAccept = s.hostAccept := by
  unfold coordTick; repeat' split
  all_goals rfl
@[simp] theorem coordTick_playSample (s : State) : (coordTick s).playSample = s.playSample := by
  unfold coordTick; repeat' split
  all_goals rfl
@[simp] theorem coordTick_capHeld (s : State) : (coordTick s).capHeld = s.capHeld := by
  unfold coordTick; repeat' split
  all_goals rfl
@[simp] theorem coordTick_capSample (s : State) : (coordTick s).capSample = s.capSample := by
  unfold coordTick; repeat' split
  all_goals rfl
@[simp] theorem coordTick_stim (s : State) : (coordTick s).stim = s.stim := by
  unfold coordTick; repeat' split
  all_goals rfl

/-! ## stopSending -/

@[simp] theorem stopSending_bpfMark (c : Cfg) (s : State) : (stopSending c s).bpfMark = s.bpfMark := by
  simp [stopSending]
@[simp] theorem stopSending_bpfSpace (c : Cfg) (s : State) : (stopSending c s).bpfSpace = s.bpfSpace := by
  simp [stopSending]
@[simp] theorem stopSending_lpfMark (c : Cfg) (s : State) : (stopSending c s).lpfMark = s.lpfMark := by
  simp [stopSending]
@[simp] theorem stopSending_lpfSpace (c : Cfg) (s : State) : (stopSending c s).lpfSpace = s.lpfSpace := by
  simp [stopSending]
@[simp] theorem stopSending_rxPhase (c : Cfg) (s : State) : (stopSending c s).rxPhase = s.rxPhase := by
  simp [stopSending]
@[simp] theorem stopSending_rxTimer (c : Cfg) (s : State) : (stopSending c s).rxTimer = s.rxTimer := by
  simp [stopSending]
@[simp] theorem stopSending_rxBitidx (c : Cfg) (s : State) : (stopSending c s).rxBitidx = s.rxBitidx := by
  simp [stopSending]
@[simp] theorem stopSending_rxWord (c : Cfg) (s : State) : (stopSending c s).rxWord = s.rxWord := by
  simp [stopSending]
@[simp] theorem stopSending_rxShift (c : Cfg) (s : State) : (stopSending c s).rxShift = s.rxShift := by
  simp [stopSending]
@[simp] theorem stopSending_rxState (c : Cfg) (s : State) : (stopSending c s).rxState = s.rxState := by
  simp [stopSending]
@[simp] theorem stopSending_rxBlockPos (c : Cfg) (s : State) : (stopSending c s).rxBlockPos = s.rxBlockPos := by
  simp [stopSending]
@[simp] theorem stopSending_txState (c : Cfg) (s : State) : (stopSending c s).txState = s.txState := by
  simp [stopSending]
@[simp] theorem stopSending_txShift (c : Cfg) (s : State) : (stopSending c s).txShift = s.txShift := by
  simp [stopSending]
@[simp] theorem stopSending_phi (c : Cfg) (s : State) : (stopSending c s).phi = s.phi := by
  simp [stopSending]
@[simp] theorem stopSending_txPending (c : Cfg) (s : State) : (stopSending c s).txPending = s.txPending := by
  simp [stopSending]
@[simp] theorem stopSending_txFrame (c : Cfg) (s : State) : (stopSending c s).txFrame = s.txFrame := by
  simp [stopSending]
@[simp] theorem stopSending_queue (c : Cfg) (s : State) : (stopSending c s).queue = s.queue := by
  simp [stopSending]
@[simp] theorem stopSending_capCause (c : Cfg) (s : State) : (stopSending c s).capCause = s.capCause := by
  simp [stopSending]
@[simp] theorem stopSending_playCause (c : Cfg) (s : State) : (stopSending c s).playCause = s.playCause := by
  simp [stopSending]
@[simp] theorem stopSending_shutdownReq (c : Cfg) (s : State) : (stopSending c s).shutdownReq = s.shutdownReq := by
  simp [stopSending]
@[simp] theorem stopSending_hostAccept (c : Cfg) (s : State) : (stopSending c s).hostAccept = s.hostAccept := by
  simp [stopSending]
@[simp] theorem stopSending_playSample (c : Cfg) (s : State) : (stopSending c s).playSample = s.playSample := by
  simp [stopSending]
@[simp] theorem stopSending_capHeld (c : Cfg) (s : State) : (stopSending c s).capHeld = s.capHeld := by
  simp [stopSending]
@[simp] theorem stopSending_capSample (c : Cfg) (s : State) : (stopSending c s).capSample = s.capSample := by
  simp [stopSending]
@[simp] theorem stopSending_stim (c : Cfg) (s : State) : (stopSending c s).stim = s.stim := by
  simp [stopSending]

/-! ## leaveService -/

@[simp] theorem leaveService_bpfMark (c : Cfg) (final : TxState) (s : State) : (leaveService c final s).bpfMark = s.bpfMark := by
  unfold leaveService; split <;> simp
@[simp] theorem leaveService_bpfSpace (c : Cfg) (final : TxState) (s : State) : (leaveService c final s).bpfSpace = s.bpfSpace := by
  unfold leaveService; split <;> simp
@[simp] theorem leaveService_lpfMark (c : Cfg) (final : TxState) (s : State) : (leaveService c final s).lpfMark = s.lpfMark := by
  unfold leaveService; split <;> simp
@[simp] theorem leaveService_lpfSpace (c : Cfg) (final : TxState) (s : State) : (leaveService c final s).lpfSpace = s.lpfSpace := by
  unfold leaveService; split <;> simp
@[simp] theorem leaveService_rxPhase (c : Cfg) (final : TxState) (s : State) : (leaveService c final s).rxPhase = s.rxPhase := by
  unfold leaveService; split <;> simp
@[simp] theorem leaveService_rxTimer (c : Cfg) (final : TxState) (s : State) : (leaveService c final s).rxTimer = s.rxTimer := by
  unfold leaveService; split <;> simp
@[simp] theorem leaveService_rxBitidx (c : Cfg) (final : TxState) (s : State) : (leaveService c final s).rxBitidx = s.rxBitidx := by
  unfold leaveService; split <;> simp
@[simp] theorem leaveService_rxWord (c : Cfg) (final : TxState) (s : State) : (leaveService c final s).rxWord = s.rxWord := by
  unfold leaveService; split <;> simp
@[simp] theorem leaveService_rxShift (c : Cfg) (final : TxState) (s : State) : (leaveService c final s).rxShift = s.rxShift := by
  unfold leaveService; split <;> simp
@[simp] theorem leaveService_rxState (c : Cfg) (final : TxState) (s : State) : (leaveService c final s).rxState = s.rxState := by
  unfold leaveService; split <;> simp
@[simp] theorem leaveService_rxBlockPos (c : Cfg) (final : TxState) (s : State) : (leaveService c final s).rxBlockPos = s.rxBlockPos := by
  unfold leaveService; split <;> simp
@[simp] theorem leaveService_txState (c : Cfg) (final : TxState) (s : State) : (leaveService c final s).txState = final := rfl
@[simp] theorem leaveService_txShift (c : Cfg) (final : TxState) (s : State) : (leaveService c final s).txShift = s.txShift := by
  unfold leaveService; split <;> simp
@[simp] theorem leaveService_phi (c : Cfg) (final : TxState) (s : State) : (leaveService c final s).phi = s.phi := by
  unfold leaveService; split <;> simp
@[simp] theorem leaveService_queue (c : Cfg) (final : TxState) (s : State) : (leaveService c final s).queue = s.queue := by
  unfold leaveService; split <;> simp
@[simp] theorem leaveService_capCause (c : Cfg) (final : TxState) (s : State) : (leaveService c final s).capCause = s.capCause := by
  unfold leaveService; split <;> simp
@[simp] theorem leaveService_playCause (c : Cfg) (final : TxState) (s : State) : (leaveService c final s).playCause = s.playCause := by
  unfold leaveService; split <;> simp
@[simp] theorem leaveService_shutdownReq (c : Cfg) (final : TxState) (s : State) : (leaveService c final s).shutdownReq = s.shutdownReq := by
  unfold leaveService; split <;> simp
@[simp] theorem leaveService_hostAccept (c : Cfg) (final : TxState) (s : State) : (leaveService c final s).hostAccept = s.hostAccept := by
  unfold leaveService; split <;> simp
@[simp] theorem leaveService_playSample (c : Cfg) (final : TxState) (s : State) : (leaveService c final s).playSample = s.playSample := by
  unfold leaveService; split <;> simp
@[simp] theorem leaveService_capHeld (c : Cfg) (final : TxState) (s : State) : (leaveService c final s).capHeld = s.capHeld := by
  unfold leaveService; split <;> simp
@[simp] theorem leaveService_capSample (c : Cfg) (final : TxState) (s : State) : (leaveService c final s).capSample = s.capSample := by
  unfold leaveService; split <;> simp
@[simp] theorem leaveService_stim (c : Cfg) (final : TxState) (s : State) : (leaveService c final s).stim = s.stim := by
  unfold leaveService; split <;> simp

/-! ## txFault -/

@[simp] theorem txFault_bpfMark (c : Cfg) (code : Cause) (s : State) : (txFault c code s).bpfMark = s.bpfMark := by
  simp [txFault]
@[simp] theorem txFault_bpfSpace (c : Cfg) (code : Cause) (s : State) : (txFault c code s).bpfSpace = s.bpfSpace := by
  simp [txFault]
@[simp] theorem txFault_lpfMark (c : Cfg) (code : Cause) (s : State) : (txFault c code s).lpfMark = s.lpfMark := by
  simp [txFault]
@[simp] theorem txFault_lpfSpace (c : Cfg) (code : Cause) (s : State) : (txFault c code s).lpfSpace = s.lpfSpace := by
  simp [txFault]
@[simp] theorem txFault_rxPhase (c : Cfg) (code : Cause) (s : State) : (txFault c code s).rxPhase = s.rxPhase := by
  simp [txFault]
@[simp] theorem txFault_rxTimer (c : Cfg) (code : Cause) (s : State) : (txFault c code s).rxTimer = s.rxTimer := by
  simp [txFault]
@[simp] theorem txFault_rxBitidx (c : Cfg) (code : Cause) (s : State) : (txFault c code s).rxBitidx = s.rxBitidx := by
  simp [txFault]
@[simp] theorem txFault_rxWord (c : Cfg) (code : Cause) (s : State) : (txFault c code s).rxWord = s.rxWord := by
  simp [txFault]
@[simp] theorem txFault_rxShift (c : Cfg) (code : Cause) (s : State) : (txFault c code s).rxShift = s.rxShift := by
  simp [txFault]
@[simp] theorem txFault_rxState (c : Cfg) (code : Cause) (s : State) : (txFault c code s).rxState = s.rxState := by
  simp [txFault]
@[simp] theorem txFault_rxBlockPos (c : Cfg) (code : Cause) (s : State) : (txFault c code s).rxBlockPos = s.rxBlockPos := by
  simp [txFault]
@[simp] theorem txFault_txShift (c : Cfg) (code : Cause) (s : State) : (txFault c code s).txShift = s.txShift := by
  simp [txFault]
@[simp] theorem txFault_phi (c : Cfg) (code : Cause) (s : State) : (txFault c code s).phi = s.phi := by
  simp [txFault]
@[simp] theorem txFault_queue (c : Cfg) (code : Cause) (s : State) : (txFault c code s).queue = s.queue := by
  simp [txFault]
@[simp] theorem txFault_capCause (c : Cfg) (code : Cause) (s : State) : (txFault c code s).capCause = s.capCause := by
  simp [txFault]
@[simp] theorem txFault_shutdownReq (c : Cfg) (code : Cause) (s : State) : (txFault c code s).shutdownReq = s.shutdownReq := by
  simp [txFault]
@[simp] theorem txFault_hostAccept (c : Cfg) (code : Cause) (s : State) : (txFault c code s).hostAccept = s.hostAccept := by
  simp [txFault]
@[simp] theorem txFault_playSample (c : Cfg) (code : Cause) (s : State) : (txFault c code s).playSample = s.playSample := by
  simp [txFault]
@[simp] theorem txFault_capHeld (c : Cfg) (code : Cause) (s : State) : (txFault c code s).capHeld = s.capHeld := by
  simp [txFault]
@[simp] theorem txFault_capSample (c : Cfg) (code : Cause) (s : State) : (txFault c code s).capSample = s.capSample := by
  simp [txFault]
@[simp] theorem txFault_stim (c : Cfg) (code : Cause) (s : State) : (txFault c code s).stim = s.stim := by
  simp [txFault]

/-! ## detect -/

@[simp] theorem detect_rxPhase (c : Cfg) (v : F64) (s : State) : ((detect c v s).1).rxPhase = s.rxPhase := rfl
@[simp] theorem detect_rxTimer (c : Cfg) (v : F64) (s : State) : ((detect c v s).1).rxTimer = s.rxTimer := rfl
@[simp] theorem detect_rxBitidx (c : Cfg) (v : F64) (s : State) : ((detect c v s).1).rxBitidx = s.rxBitidx := rfl
@[simp] theorem detect_rxWord (c : Cfg) (v : F64) (s : State) : ((detect c v s).1).rxWord = s.rxWord := rfl
@[simp] theorem detect_rxShift (c : Cfg) (v : F64) (s : State) : ((detect c v s).1).rxShift = s.rxShift := rfl
@[simp] theorem detect_rxState (c : Cfg) (v : F64) (s : State) : ((detect c v s).1).rxState = s.rxState := rfl
@[simp] theorem detect_rxBlockPos (c : Cfg) (v : F64) (s : State) : ((detect c v s).1).rxBlockPos = s.rxBlockPos := rfl
@[simp] theorem detect_suppress (c : Cfg) (v : F64) (s : State) : ((detect c v s).1).suppress = s.suppress := rfl
@[simp] theorem detect_guardArmed (c : Cfg) (v : F64) (s : State) : ((detect c v s).1).guardArmed = s.guardArmed := rfl
@[simp] theorem detect_guardCount (c : Cfg) (v : F64) (s : State) : ((detect c v s).1).guardCount = s.guardCount := rfl
@[simp] theorem detect_txState (c : Cfg) (v : F64) (s : State) : ((detect c v s).1).txState = s.txState := rfl
@[simp] theorem detect_txShift (c : Cfg) (v : F64) (s : State) : ((detect c v s).1).txShift = s.txShift := rfl
@[simp] theorem detect_sending (c : Cfg) (v : F64) (s : State) : ((detect c v s).1).sending = s.sending := rfl
@[simp] theorem detect_phi (c : Cfg) (v : F64) (s : State) : ((detect c v s).1).phi = s.phi := rfl
@[simp] theorem detect_txPending (c : Cfg) (v : F64) (s : State) : ((detect c v s).1).txPending = s.txPending := rfl
@[simp] theorem detect_txFrame (c : Cfg) (v : F64) (s : State) : ((detect c v s).1).txFrame = s.txFrame := rfl
@[simp] theorem detect_queue (c : Cfg) (v : F64) (s : State) : ((detect c v s).1).queue = s.queue := rfl
@[simp] theorem detect_capCause (c : Cfg) (v : F64) (s : State) : ((detect c v s).1).capCause = s.capCause := rfl
@[simp] theorem detect_playCause (c : Cfg) (v : F64) (s : State) : ((detect c v s).1).playCause = s.playCause := rfl
@[simp] theorem detect_shutdownReq (c : Cfg) (v : F64) (s : State) : ((detect c v s).1).shutdownReq = s.shutdownReq := rfl
@[simp] theorem detect_trace (c : Cfg) (v : F64) (s : State) : ((detect c v s).1).trace = s.trace := rfl
@[simp] theorem detect_hostAccept (c : Cfg) (v : F64) (s : State) : ((detect c v s).1).hostAccept = s.hostAccept := rfl
@[simp] theorem detect_playSample (c : Cfg) (v : F64) (s : State) : ((detect c v s).1).playSample = s.playSample := rfl
@[simp] theorem detect_capHeld (c : Cfg) (v : F64) (s : State) : ((detect c v s).1).capHeld = s.capHeld := rfl
@[simp] theorem detect_capSample (c : Cfg) (v : F64) (s : State) : ((detect c v s).1).capSample = s.capSample := rfl
@[simp] theorem detect_stim (c : Cfg) (v : F64) (s : State) : ((detect c v s).1).stim = s.stim := rfl

/-! ## rxClear -/

@[simp] theorem rxClear_bpfMark (s : State) : (rxClear s).bpfMark = s.bpfMark := rfl
@[simp] theorem rxClear_bpfSpace (s : State) : (rxClear s).bpfSpace = s.bpfSpace := rfl
@[simp] theorem rxClear_lpfMark (s : State) : (rxClear s).lpfMark = s.lpfMark := rfl
@[simp] theorem rxClear_lpfSpace (s : State) : (rxClear s).lpfSpace = s.lpfSpace := rfl
@[simp] theorem rxClear_rxPhase (s : State) : (rxClear s).rxPhase = .await := rfl
@[simp] theorem rxClear_rxTimer (s : State) : (rxClear s).rxTimer = 0 := rfl
@[simp] theorem rxClear_rxBitidx (s : State) : (rxClear s).rxBitidx = 0 := rfl
@[simp] theorem rxClear_rxWord (s : State) : (rxClear s).rxWord = 0 := rfl
@[simp] theorem rxClear_rxShift (s : State) : (rxClear s).rxShift = s.rxShift := rfl
@[simp] theorem rxClear_rxState (s : State) : (rxClear s).rxState = s.rxState := rfl
@[simp] theorem rxClear_rxBlockPos (s : State) : (rxClear s).rxBlockPos = s.rxBlockPos := rfl
@[simp] theorem rxClear_suppress (s : State) : (rxClear s).suppress = s.suppress := rfl
@[simp] theorem rxClear_guardArmed (s : State) : (rxClear s).guardArmed = s.guardArmed := rfl
@[simp] theorem rxClear_guardCount (s : State) : (rxClear s).guardCount = s.guardCount := rfl
@[simp] theorem rxClear_txState (s : State) : (rxClear s).txState = s.txState := rfl
@[simp] theorem rxClear_txShift (s : State) : (rxClear s).txShift = s.txShift := rfl
@[simp] theorem rxClear_sending (s : State) : (rxClear s).sending = s.sending := rfl
@[simp] theorem rxClear_phi (s : State) : (rxClear s).phi = s.phi := rfl
@[simp] theorem rxClear_txPending (s : State) : (rxClear s).txPending = s.txPending := rfl
@[simp] theorem rxClear_txFrame (s : State) : (rxClear s).txFrame = s.txFrame := rfl
@[simp] theorem rxClear_queue (s : State) : (rxClear s).queue = s.queue := rfl
@[simp] theorem rxClear_capCause (s : State) : (rxClear s).capCause = s.capCause := rfl
@[simp] theorem rxClear_playCause (s : State) : (rxClear s).playCause = s.playCause := rfl
@[simp] theorem rxClear_shutdownReq (s : State) : (rxClear s).shutdownReq = s.shutdownReq := rfl
@[simp] theorem rxClear_trace (s : State) : (rxClear s).trace = s.trace := rfl
@[simp] theorem rxClear_hostAccept (s : State) : (rxClear s).hostAccept = s.hostAccept := rfl
@[simp] theorem rxClear_playSample (s : State) : (rxClear s).playSample = s.playSample := rfl
@[simp] theorem rxClear_capHeld (s : State) : (rxClear s).capHeld = s.capHeld := rfl
@[simp] theorem rxClear_capSample (s : State) : (rxClear s).capSample = s.capSample := rfl
@[simp] theorem rxClear_stim (s : State) : (rxClear s).stim = s.stim := rfl

/-! ## decodeCharacter -/

@[simp] theorem decodeCharacter_bpfMark (c : Cfg) (code : Code) (s : State) : (decodeCharacter c code s).bpfMark = s.bpfMark := by
  unfold decodeCharacter; repeat' split
  all_goals rfl
@[simp] theorem decodeCharacter_bpfSpace (c : Cfg) (code : Code) (s : State) : (decodeCharacter c code s).bpfSpace = s.bpfSpace := by
  unfold decodeCharacter; repeat' split
  all_goals rfl
@[simp] theorem decodeCharacter_lpfMark (c : Cfg) (code : Code) (s : State) : (decodeCharacter c code s).lpfMark = s.lpfMark := by
  unfold decodeCharacter; repeat' split
  all_goals rfl
@[simp] theorem decodeCharacter_lpfSpace (c : Cfg) (code : Code) (s : State) : (decodeCharacter c code s).lpfSpace = s.lpfSpace := by
  unfold decodeCharacter; repeat' split
  all_goals rfl
@[simp] theorem decodeCharacter_rxPhase (c : Cfg) (code : Code) (s : State) : (decodeCharacter c code s).rxPhase = s.rxPhase := by
  unfold decodeCharacter; repeat' split
  all_goals rfl
@[simp] theorem decodeCharacter_rxTimer (c : Cfg) (code : Code) (s : State) : (decodeCharacter c code s).rxTimer = s.rxTimer := by
  unfold decodeCharacter; repeat' split
  all_goals rfl
@[simp] theorem decodeCharacter_rxBitidx (c : Cfg) (code : Code) (s : State) : (decodeCharacter c code s).rxBitidx = s.rxBitidx := by
  unfold decodeCharacter; repeat' split
  all_goals rfl
@[simp] theorem decodeCharacter_rxWord (c : Cfg) (code : Code) (s : State) : (decodeCharacter c code s).rxWord = s.rxWord := by
  unfold decodeCharacter; repeat' split
  all_goals rfl
@[simp] theorem decodeCharacter_rxState (c : Cfg) (code : Code) (s : State) : (decodeCharacter c code s).rxState = s.rxState := by
  unfold decodeCharacter; repeat' split
  all_goals rfl
@[simp] theorem decodeCharacter_rxBlockPos (c : Cfg) (code : Code) (s : State) : (decodeCharacter c code s).rxBlockPos = s.rxBlockPos := by
  unfold decodeCharacter; repeat' split
  all_goals rfl
@[simp] theorem decodeCharacter_suppress (c : Cfg) (code : Code) (s : State) : (decodeCharacter c code s).suppress = s.suppress := by
  unfold decodeCharacter; repeat' split
  all_goals rfl
@[simp] theorem decodeCharacter_guardArmed (c : Cfg) (code : Code) (s : State) : (decodeCharacter c code s).guardArmed = s.guardArmed := by
  unfold decodeCharacter; repeat' split
  all_goals rfl
@[simp] theorem decodeCharacter_guardCount (c : Cfg) (code : Code) (s : State) : (decodeCharacter c code s).guardCount = s.guardCount := by
  unfold decodeCharacter; repeat' split
  all_goals rfl
@[simp] theorem decodeCharacter_txState (c : Cfg) (code : Code) (s : State) : (decodeCharacter c code s).txState = s.txState := by
  unfold decodeCharacter; repeat' split
  all_goals rfl
@[simp] theorem decodeCharacter_txShift (c : Cfg) (code : Code) (s : State) : (decodeCharacter c code s).txShift = s.txShift := by
  unfold decodeCharacter; repeat' split
  all_goals rfl
@[simp] theorem decodeCharacter_sending (c : Cfg) (code : Code) (s : State) : (decodeCharacter c code s).sending = s.sending := by
  unfold decodeCharacter; repeat' split
  all_goals rfl
@[simp] theorem decodeCharacter_phi (c : Cfg) (code : Code) (s : State) : (decodeCharacter c code s).phi = s.phi := by
  unfold decodeCharacter; repeat' split
  all_goals rfl
@[simp] theorem decodeCharacter_txPending (c : Cfg) (code : Code) (s : State) : (decodeCharacter c code s).txPending = s.txPending := by
  unfold decodeCharacter; repeat' split
  all_goals rfl
@[simp] theorem decodeCharacter_txFrame (c : Cfg) (code : Code) (s : State) : (decodeCharacter c code s).txFrame = s.txFrame := by
  unfold decodeCharacter; repeat' split
  all_goals rfl
@[simp] theorem decodeCharacter_queue (c : Cfg) (code : Code) (s : State) : (decodeCharacter c code s).queue = s.queue := by
  unfold decodeCharacter; repeat' split
  all_goals rfl
@[simp] theorem decodeCharacter_capCause (c : Cfg) (code : Code) (s : State) : (decodeCharacter c code s).capCause = s.capCause := by
  unfold decodeCharacter; repeat' split
  all_goals rfl
@[simp] theorem decodeCharacter_playCause (c : Cfg) (code : Code) (s : State) : (decodeCharacter c code s).playCause = s.playCause := by
  unfold decodeCharacter; repeat' split
  all_goals rfl
@[simp] theorem decodeCharacter_shutdownReq (c : Cfg) (code : Code) (s : State) : (decodeCharacter c code s).shutdownReq = s.shutdownReq := by
  unfold decodeCharacter; repeat' split
  all_goals rfl
@[simp] theorem decodeCharacter_hostAccept (c : Cfg) (code : Code) (s : State) : (decodeCharacter c code s).hostAccept = s.hostAccept := by
  unfold decodeCharacter; repeat' split
  all_goals rfl
@[simp] theorem decodeCharacter_playSample (c : Cfg) (code : Code) (s : State) : (decodeCharacter c code s).playSample = s.playSample := by
  unfold decodeCharacter; repeat' split
  all_goals rfl
@[simp] theorem decodeCharacter_capHeld (c : Cfg) (code : Code) (s : State) : (decodeCharacter c code s).capHeld = s.capHeld := by
  unfold decodeCharacter; repeat' split
  all_goals rfl
@[simp] theorem decodeCharacter_capSample (c : Cfg) (code : Code) (s : State) : (decodeCharacter c code s).capSample = s.capSample := by
  unfold decodeCharacter; repeat' split
  all_goals rfl
@[simp] theorem decodeCharacter_stim (c : Cfg) (code : Code) (s : State) : (decodeCharacter c code s).stim = s.stim := by
  unfold decodeCharacter; repeat' split
  all_goals rfl

/-! ## dataBit -/

@[simp] theorem dataBit_bpfMark (b : Bool) (s : State) : (dataBit b s).bpfMark = s.bpfMark := rfl
@[simp] theorem dataBit_bpfSpace (b : Bool) (s : State) : (dataBit b s).bpfSpace = s.bpfSpace := rfl
@[simp] theorem dataBit_lpfMark (b : Bool) (s : State) : (dataBit b s).lpfMark = s.lpfMark := rfl
@[simp] theorem dataBit_lpfSpace (b : Bool) (s : State) : (dataBit b s).lpfSpace = s.lpfSpace := rfl
@[simp] theorem dataBit_rxPhase (b : Bool) (s : State) : (dataBit b s).rxPhase = s.rxPhase := rfl
@[simp] theorem dataBit_rxTimer (b : Bool) (s : State) : (dataBit b s).rxTimer = s.rxTimer := rfl
@[simp] theorem dataBit_rxBitidx (b : Bool) (s : State) : (dataBit b s).rxBitidx = s.rxBitidx + 1 := rfl
@[simp] theorem dataBit_rxShift (b : Bool) (s : State) : (dataBit b s).rxShift = s.rxShift := rfl
@[simp] theorem dataBit_rxState (b : Bool) (s : State) : (dataBit b s).rxState = s.rxState := rfl
@[simp] theorem dataBit_rxBlockPos (b : Bool) (s : State) : (dataBit b s).rxBlockPos = s.rxBlockPos := rfl
@[simp] theorem dataBit_suppress (b : Bool) (s : State) : (dataBit b s).suppress = s.suppress := rfl
@[simp] theorem dataBit_guardArmed (b : Bool) (s : State) : (dataBit b s).guardArmed = s.guardArmed := rfl
@[simp] theorem dataBit_guardCount (b : Bool) (s : State) : (dataBit b s).guardCount = s.guardCount := rfl
@[simp] theorem dataBit_txState (b : Bool) (s : State) : (dataBit b s).txState = s.txState := rfl
@[simp] theorem dataBit_txShift (b : Bool) (s : State) : (dataBit b s).txShift = s.txShift := rfl
@[simp] theorem dataBit_sending (b : Bool) (s : State) : (dataBit b s).sending = s.sending := rfl
@[simp] theorem dataBit_phi (b : Bool) (s : State) : (dataBit b s).phi = s.phi := rfl
@[simp] theorem dataBit_txPending (b : Bool) (s : State) : (dataBit b s).txPending = s.txPending := rfl
@[simp] theorem dataBit_txFrame (b : Bool) (s : State) : (dataBit b s).txFrame = s.txFrame := rfl
@[simp] theorem dataBit_queue (b : Bool) (s : State) : (dataBit b s).queue = s.queue := rfl
@[simp] theorem dataBit_capCause (b : Bool) (s : State) : (dataBit b s).capCause = s.capCause := rfl
@[simp] theorem dataBit_playCause (b : Bool) (s : State) : (dataBit b s).playCause = s.playCause := rfl
@[simp] theorem dataBit_shutdownReq (b : Bool) (s : State) : (dataBit b s).shutdownReq = s.shutdownReq := rfl
@[simp] theorem dataBit_trace (b : Bool) (s : State) : (dataBit b s).trace = s.trace := rfl
@[simp] theorem dataBit_hostAccept (b : Bool) (s : State) : (dataBit b s).hostAccept = s.hostAccept := rfl
@[simp] theorem dataBit_playSample (b : Bool) (s : State) : (dataBit b s).playSample = s.playSample := rfl
@[simp] theorem dataBit_capHeld (b : Bool) (s : State) : (dataBit b s).capHeld = s.capHeld := rfl
@[simp] theorem dataBit_capSample (b : Bool) (s : State) : (dataBit b s).capSample = s.capSample := rfl
@[simp] theorem dataBit_stim (b : Bool) (s : State) : (dataBit b s).stim = s.stim := rfl

/-! ## stopBit -/

@[simp] theorem stopBit_bpfMark (c : Cfg) (b : Bool) (s : State) : (stopBit c b s).bpfMark = s.bpfMark := by
  unfold stopBit; split <;> simp
@[simp] theorem stopBit_bpfSpace (c : Cfg) (b : Bool) (s : State) : (stopBit c b s).bpfSpace = s.bpfSpace := by
  unfold stopBit; split <;> simp
@[simp] theorem stopBit_lpfMark (c : Cfg) (b : Bool) (s : State) : (stopBit c b s).lpfMark = s.lpfMark := by
  unfold stopBit; split <;> simp
@[simp] theorem stopBit_lpfSpace (c : Cfg) (b : Bool) (s : State) : (stopBit c b s).lpfSpace = s.lpfSpace := by
  unfold stopBit; split <;> simp
@[simp] theorem stopBit_rxPhase (c : Cfg) (b : Bool) (s : State) : (stopBit c b s).rxPhase = .await := rfl
@[simp] theorem stopBit_rxTimer (c : Cfg) (b : Bool) (s : State) : (stopBit c b s).rxTimer = 0 := rfl
@[simp] theorem stopBit_rxBitidx (c : Cfg) (b : Bool) (s : State) : (stopBit c b s).rxBitidx = 0 := rfl
@[simp] theorem stopBit_rxWord (c : Cfg) (b : Bool) (s : State) : (stopBit c b s).rxWord = 0 := rfl
@[simp] theorem stopBit_rxState (c : Cfg) (b : Bool) (s : State) : (stopBit c b s).rxState = s.rxState := by
  unfold stopBit; split <;> simp
@[simp] theorem stopBit_rxBlockPos (c : Cfg) (b : Bool) (s : State) : (stopBit c b s).rxBlockPos = s.rxBlockPos := by
  unfold stopBit; split <;> simp
@[simp] theorem stopBit_suppress (c : Cfg) (b : Bool) (s : State) : (stopBit c b s).suppress = s.suppress := by
  unfold stopBit; split <;> simp
@[simp] theorem stopBit_guardArmed (c : Cfg) (b : Bool) (s : State) : (stopBit c b s).guardArmed = s.guardArmed := by
  unfold stopBit; split <;> simp
@[simp] theorem stopBit_guardCount (c : Cfg) (b : Bool) (s : State) : (stopBit c b s).guardCount = s.guardCount := by
  unfold stopBit; split <;> simp
@[simp] theorem stopBit_txState (c : Cfg) (b : Bool) (s : State) : (stopBit c b s).txState = s.txState := by
  unfold stopBit; split <;> simp
@[simp] theorem stopBit_txShift (c : Cfg) (b : Bool) (s : State) : (stopBit c b s).txShift = s.txShift := by
  unfold stopBit; split <;> simp
@[simp] theorem stopBit_sending (c : Cfg) (b : Bool) (s : State) : (stopBit c b s).sending = s.sending := by
  unfold stopBit; split <;> simp
@[simp] theorem stopBit_phi (c : Cfg) (b : Bool) (s : State) : (stopBit c b s).phi = s.phi := by
  unfold stopBit; split <;> simp
@[simp] theorem stopBit_txPending (c : Cfg) (b : Bool) (s : State) : (stopBit c b s).txPending = s.txPending := by
  unfold stopBit; split <;> simp
@[simp] theorem stopBit_txFrame (c : Cfg) (b : Bool) (s : State) : (stopBit c b s).txFrame = s.txFrame := by
  unfold stopBit; split <;> simp
@[simp] theorem stopBit_queue (c : Cfg) (b : Bool) (s : State) : (stopBit c b s).queue = s.queue := by
  unfold stopBit; split <;> simp
@[simp] theorem stopBit_capCause (c : Cfg) (b : Bool) (s : State) : (stopBit c b s).capCause = s.capCause := by
  unfold stopBit; split <;> simp
@[simp] theorem stopBit_playCause (c : Cfg) (b : Bool) (s : State) : (stopBit c b s).playCause = s.playCause := by
  unfold stopBit; split <;> simp
@[simp] theorem stopBit_shutdownReq (c : Cfg) (b : Bool) (s : State) : (stopBit c b s).shutdownReq = s.shutdownReq := by
  unfold stopBit; split <;> simp
@[simp] theorem stopBit_hostAccept (c : Cfg) (b : Bool) (s : State) : (stopBit c b s).hostAccept = s.hostAccept := by
  unfold stopBit; split <;> simp
@[simp] theorem stopBit_playSample (c : Cfg) (b : Bool) (s : State) : (stopBit c b s).playSample = s.playSample := by
  unfold stopBit; split <;> simp
@[simp] theorem stopBit_capHeld (c : Cfg) (b : Bool) (s : State) : (stopBit c b s).capHeld = s.capHeld := by
  unfold stopBit; split <;> simp
@[simp] theorem stopBit_capSample (c : Cfg) (b : Bool) (s : State) : (stopBit c b s).capSample = s.capSample := by
  unfold stopBit; split <;> simp
@[simp] theorem stopBit_stim (c : Cfg) (b : Bool) (s : State) : (stopBit c b s).stim = s.stim := by
  unfold stopBit; split <;> simp

/-! ## awaitStep -/

@[simp] theorem awaitStep_bpfMark (c : Cfg) (nrz : F64) (s : State) : (awaitStep c nrz s).bpfMark = s.bpfMark := by
  unfold awaitStep; split <;> rfl
@[simp] theorem awaitStep_bpfSpace (c : Cfg) (nrz : F64) (s : State) : (awaitStep c nrz s).bpfSpace = s.bpfSpace := by
  unfold awaitStep; split <;> rfl
@[simp] theorem awaitStep_lpfMark (c : Cfg) (nrz : F64) (s : State) : (awaitStep c nrz s).lpfMark = s.lpfMark := by
  unfold awaitStep; split <;> rfl
@[simp] theorem awaitStep_lpfSpace (c : Cfg) (nrz : F64) (s : State) : (awaitStep c nrz s).lpfSpace = s.lpfSpace := by
  unfold awaitStep; split <;> rfl
@[simp] theorem awaitStep_rxShift (c : Cfg) (nrz : F64) (s : State) : (awaitStep c nrz s).rxShift = s.rxShift := by
  unfold awaitStep; split <;> rfl
@[simp] theorem awaitStep_rxState (c : Cfg) (nrz : F64) (s : State) : (awaitStep c nrz s).rxState = s.rxState := by
  unfold awaitStep; split <;> rfl
@[simp] theorem awaitStep_rxBlockPos (c : Cfg) (nrz : F64) (s : State) : (awaitStep c nrz s).rxBlockPos = s.rxBlockPos := by
  unfold awaitStep; split <;> rfl
@[simp] theorem awaitStep_suppress (c : Cfg) (nrz : F64) (s : State) : (awaitStep c nrz s).suppress = s.suppress := by
  unfold awaitStep; split <;> rfl
@[simp] theorem awaitStep_guardArmed (c : Cfg) (nrz : F64) (s : State) : (awaitStep c nrz s).guardArmed = s.guardArmed := by
  unfold awaitStep; split <;> rfl
@[simp] theorem awaitStep_guardCount (c : Cfg) (nrz : F64) (s : State) : (awaitStep c nrz s).guardCount = s.guardCount := by
  unfold awaitStep; split <;> rfl
@[simp] theorem awaitStep_txState (c : Cfg) (nrz : F64) (s : State) : (awaitStep c nrz s).txState = s.txState := by
  unfold awaitStep; split <;> rfl
@[simp] theorem awaitStep_txShift (c : Cfg) (nrz : F64) (s : State) : (awaitStep c nrz s).txShift = s.txShift := by
  unfold awaitStep; split <;> rfl
@[simp] theorem awaitStep_sending (c : Cfg) (nrz : F64) (s : State) : (awaitStep c nrz s).sending = s.sending := by
  unfold awaitStep; split <;> rfl
@[simp] theorem awaitStep_phi (c : Cfg) (nrz : F64) (s : State) : (awaitStep c nrz s).phi = s.phi := by
  unfold awaitStep; split <;> rfl
@[simp] theorem awaitStep_txPending (c : Cfg) (nrz : F64) (s : State) : (awaitStep c nrz s).txPending = s.txPending := by
  unfold awaitStep; split <;> rfl
@[simp] theorem awaitStep_txFrame (c : Cfg) (nrz : F64) (s : State) : (awaitStep c nrz s).txFrame = s.txFrame := by
  unfold awaitStep; split <;> rfl
@[simp] theorem awaitStep_queue (c : Cfg) (nrz : F64) (s : State) : (awaitStep c nrz s).queue = s.queue := by
  unfold awaitStep; split <;> rfl
@[simp] theorem awaitStep_capCause (c : Cfg) (nrz : F64) (s : State) : (awaitStep c nrz s).capCause = s.capCause := by
  unfold awaitStep; split <;> rfl
@[simp] theorem awaitStep_playCause (c : Cfg) (nrz : F64) (s : State) : (awaitStep c nrz s).playCause = s.playCause := by
  unfold awaitStep; split <;> rfl
@[simp] theorem awaitStep_shutdownReq (c : Cfg) (nrz : F64) (s : State) : (awaitStep c nrz s).shutdownReq = s.shutdownReq := by
  unfold awaitStep; split <;> rfl
@[simp] theorem awaitStep_trace (c : Cfg) (nrz : F64) (s : State) : (awaitStep c nrz s).trace = s.trace := by
  unfold awaitStep; split <;> rfl
@[simp] theorem awaitStep_hostAccept (c : Cfg) (nrz : F64) (s : State) : (awaitStep c nrz s).hostAccept = s.hostAccept := by
  unfold awaitStep; split <;> rfl
@[simp] theorem awaitStep_playSample (c : Cfg) (nrz : F64) (s : State) : (awaitStep c nrz s).playSample = s.playSample := by
  unfold awaitStep; split <;> rfl
@[simp] theorem awaitStep_capHeld (c : Cfg) (nrz : F64) (s : State) : (awaitStep c nrz s).capHeld = s.capHeld := by
  unfold awaitStep; split <;> rfl
@[simp] theorem awaitStep_capSample (c : Cfg) (nrz : F64) (s : State) : (awaitStep c nrz s).capSample = s.capSample := by
  unfold awaitStep; split <;> rfl
@[simp] theorem awaitStep_stim (c : Cfg) (nrz : F64) (s : State) : (awaitStep c nrz s).stim = s.stim := by
  unfold awaitStep; split <;> rfl

/-! ## framingStep -/

@[simp] theorem framingStep_bpfMark (c : Cfg) (nrz : F64) (s : State) : (framingStep c nrz s).bpfMark = s.bpfMark := by
  unfold framingStep; dsimp only; repeat' split
  all_goals simp
@[simp] theorem framingStep_bpfSpace (c : Cfg) (nrz : F64) (s : State) : (framingStep c nrz s).bpfSpace = s.bpfSpace := by
  unfold framingStep; dsimp only; repeat' split
  all_goals simp
@[simp] theorem framingStep_lpfMark (c : Cfg) (nrz : F64) (s : State) : (framingStep c nrz s).lpfMark = s.lpfMark := by
  unfold framingStep; dsimp only; repeat' split
  all_goals simp
@[simp] theorem framingStep_lpfSpace (c : Cfg) (nrz : F64) (s : State) : (framingStep c nrz s).lpfSpace = s.lpfSpace := by
  unfold framingStep; dsimp only; repeat' split
  all_goals simp
@[simp] theorem framingStep_rxState (c : Cfg) (nrz : F64) (s : State) : (framingStep c nrz s).rxState = s.rxState := by
  unfold framingStep; dsimp only; repeat' split
  all_goals simp
@[simp] theorem framingStep_rxBlockPos (c : Cfg) (nrz : F64) (s : State) : (framingStep c nrz s).rxBlockPos = s.rxBlockPos := by
  unfold framingStep; dsimp only; repeat' split
  all_goals simp
@[simp] theorem framingStep_suppress (c : Cfg) (nrz : F64) (s : State) : (framingStep c nrz s).suppress = s.suppress := by
  unfold framingStep; dsimp only; repeat' split
  all_goals simp
@[simp] theorem framingStep_guardArmed (c : Cfg) (nrz : F64) (s : State) : (framingStep c nrz s).guardArmed = s.guardArmed := by
  unfold framingStep; dsimp only; repeat' split
  all_goals simp
@[simp] theorem framingStep_guardCount (c : Cfg) (nrz : F64) (s : State) : (framingStep c nrz s).guardCount = s.guardCount := by
  unfold framingStep; dsimp only; repeat' split
  all_goals simp
@[simp] theorem framingStep_txState (c : Cfg) (nrz : F64) (s : State) : (framingStep c nrz s).txState = s.txState := by
  unfold framingStep; dsimp only; repeat' split
  all_goals simp
@[simp] theorem framingStep_txShift (c : Cfg) (nrz : F64) (s : State) : (framingStep c nrz s).txShift = s.txShift := by
  unfold framingStep; dsimp only; repeat' split
  all_goals simp
@[simp] theorem framingStep_sending (c : Cfg) (nrz : F64) (s : State) : (framingStep c nrz s).sending = s.sending := by
  unfold framingStep; dsimp only; repeat' split
  all_goals simp
@[simp] theorem framingStep_phi (c : Cfg) (nrz : F64) (s : State) : (framingStep c nrz s).phi = s.phi := by
  unfold framingStep; dsimp only; repeat' split
  all_goals simp
@[simp] theorem framingStep_txPending (c : Cfg) (nrz : F64) (s : State) : (framingStep c nrz s).txPending = s.txPending := by
  unfold framingStep; dsimp only; repeat' split
  all_goals simp
@[simp] theorem framingStep_txFrame (c : Cfg) (nrz : F64) (s : State) : (framingStep c nrz s).txFrame = s.txFrame := by
  unfold framingStep; dsimp only; repeat' split
  all_goals simp
@[simp] theorem framingStep_queue (c : Cfg) (nrz : F64) (s : State) : (framingStep c nrz s).queue = s.queue := by
  unfold framingStep; dsimp only; repeat' split
  all_goals simp
@[simp] theorem framingStep_capCause (c : Cfg) (nrz : F64) (s : State) : (framingStep c nrz s).capCause = s.capCause := by
  unfold framingStep; dsimp only; repeat' split
  all_goals simp
@[simp] theorem framingStep_playCause (c : Cfg) (nrz : F64) (s : State) : (framingStep c nrz s).playCause = s.playCause := by
  unfold framingStep; dsimp only; repeat' split
  all_goals simp
@[simp] theorem framingStep_shutdownReq (c : Cfg) (nrz : F64) (s : State) : (framingStep c nrz s).shutdownReq = s.shutdownReq := by
  unfold framingStep; dsimp only; repeat' split
  all_goals simp
@[simp] theorem framingStep_hostAccept (c : Cfg) (nrz : F64) (s : State) : (framingStep c nrz s).hostAccept = s.hostAccept := by
  unfold framingStep; dsimp only; repeat' split
  all_goals simp
@[simp] theorem framingStep_playSample (c : Cfg) (nrz : F64) (s : State) : (framingStep c nrz s).playSample = s.playSample := by
  unfold framingStep; dsimp only; repeat' split
  all_goals simp
@[simp] theorem framingStep_capHeld (c : Cfg) (nrz : F64) (s : State) : (framingStep c nrz s).capHeld = s.capHeld := by
  unfold framingStep; dsimp only; repeat' split
  all_goals simp
@[simp] theorem framingStep_capSample (c : Cfg) (nrz : F64) (s : State) : (framingStep c nrz s).capSample = s.capSample := by
  unfold framingStep; dsimp only; repeat' split
  all_goals simp
@[simp] theorem framingStep_stim (c : Cfg) (nrz : F64) (s : State) : (framingStep c nrz s).stim = s.stim := by
  unfold framingStep; dsimp only; repeat' split
  all_goals simp

/-! ## demod -/

@[simp] theorem demod_bpfMark (c : Cfg) (nrz : F64) (s : State) : (demod c nrz s).bpfMark = s.bpfMark := by
  unfold demod; repeat' split
  all_goals simp
@[simp] theorem demod_bpfSpace (c : Cfg) (nrz : F64) (s : State) : (demod c nrz s).bpfSpace = s.bpfSpace := by
  unfold demod; repeat' split
  all_goals simp
@[simp] theorem demod_lpfMark (c : Cfg) (nrz : F64) (s : State) : (demod c nrz s).lpfMark = s.lpfMark := by
  unfold demod; repeat' split
  all_goals simp
@[simp] theorem demod_lpfSpace (c : Cfg) (nrz : F64) (s : State) : (demod c nrz s).lpfSpace = s.lpfSpace := by
  unfold demod; repeat' split
  all_goals simp
@[simp] theorem demod_rxState (c : Cfg) (nrz : F64) (s : State) : (demod c nrz s).rxState = s.rxState := by
  unfold demod; repeat' split
  all_goals simp
@[simp] theorem demod_rxBlockPos (c : Cfg) (nrz : F64) (s : State) : (demod c nrz s).rxBlockPos = s.rxBlockPos := by
  unfold demod; repeat' split
  all_goals simp
@[simp] theorem demod_suppress (c : Cfg) (nrz : F64) (s : State) : (demod c nrz s).suppress = s.suppress := by
  unfold demod; repeat' split
  all_goals simp
@[simp] theorem demod_guardArmed (c : Cfg) (nrz : F64) (s : State) : (demod c nrz s).guardArmed = s.guardArmed := by
  unfold demod; repeat' split
  all_goals simp
@[simp] theorem demod_guardCount (c : Cfg) (nrz : F64) (s : State) : (demod c nrz s).guardCount = s.guardCount := by
  unfold demod; repeat' split
  all_goals simp
@[simp] theorem demod_txState (c : Cfg) (nrz : F64) (s : State) : (demod c nrz s).txState = s.txState := by
  unfold demod; repeat' split
  all_goals simp
@[simp] theorem demod_txShift (c : Cfg) (nrz : F64) (s : State) : (demod c nrz s).txShift = s.txShift := by
  unfold demod; repeat' split
  all_goals simp
@[simp] theorem demod_sending (c : Cfg) (nrz : F64) (s : State) : (demod c nrz s).sending = s.sending := by
  unfold demod; repeat' split
  all_goals simp
@[simp] theorem demod_phi (c : Cfg) (nrz : F64) (s : State) : (demod c nrz s).phi = s.phi := by
  unfold demod; repeat' split
  all_goals simp
@[simp] theorem demod_txPending (c : Cfg) (nrz : F64) (s : State) : (demod c nrz s).txPending = s.txPending := by
  unfold demod; repeat' split
  all_goals simp
@[simp] theorem demod_txFrame (c : Cfg) (nrz : F64) (s : State) : (demod c nrz s).txFrame = s.txFrame := by
  unfold demod; repeat' split
  all_goals simp
@[simp] theorem demod_queue (c : Cfg) (nrz : F64) (s : State) : (demod c nrz s).queue = s.queue := by
  unfold demod; repeat' split
  all_goals simp
@[simp] theorem demod_capCause (c : Cfg) (nrz : F64) (s : State) : (demod c nrz s).capCause = s.capCause := by
  unfold demod; repeat' split
  all_goals simp
@[simp] theorem demod_playCause (c : Cfg) (nrz : F64) (s : State) : (demod c nrz s).playCause = s.playCause := by
  unfold demod; repeat' split
  all_goals simp
@[simp] theorem demod_shutdownReq (c : Cfg) (nrz : F64) (s : State) : (demod c nrz s).shutdownReq = s.shutdownReq := by
  unfold demod; repeat' split
  all_goals simp
@[simp] theorem demod_hostAccept (c : Cfg) (nrz : F64) (s : State) : (demod c nrz s).hostAccept = s.hostAccept := by
  unfold demod; repeat' split
  all_goals simp
@[simp] theorem demod_playSample (c : Cfg) (nrz : F64) (s : State) : (demod c nrz s).playSample = s.playSample := by
  unfold demod; repeat' split
  all_goals simp
@[simp] theorem demod_capHeld (c : Cfg) (nrz : F64) (s : State) : (demod c nrz s).capHeld = s.capHeld := by
  unfold demod; repeat' split
  all_goals simp
@[simp] theorem demod_capSample (c : Cfg) (nrz : F64) (s : State) : (demod c nrz s).capSample = s.capSample := by
  unfold demod; repeat' split
  all_goals simp
@[simp] theorem demod_stim (c : Cfg) (nrz : F64) (s : State) : (demod c nrz s).stim = s.stim := by
  unfold demod; repeat' split
  all_goals simp

/-! ## advanceBlock -/

@[simp] theorem advanceBlock_bpfMark (c : Cfg) (s : State) : (advanceBlock c s).bpfMark = s.bpfMark := rfl
@[simp] theorem advanceBlock_bpfSpace (c : Cfg) (s : State) : (advanceBlock c s).bpfSpace = s.bpfSpace := rfl
@[simp] theorem advanceBlock_lpfMark (c : Cfg) (s : State) : (advanceBlock c s).lpfMark = s.lpfMark := rfl
@[simp] theorem advanceBlock_lpfSpace (c : Cfg) (s : State) : (advanceBlock c s).lpfSpace = s.lpfSpace := rfl
@[simp] theorem advanceBlock_rxPhase (c : Cfg) (s : State) : (advanceBlock c s).rxPhase = s.rxPhase := rfl
@[simp] theorem advanceBlock_rxTimer (c : Cfg) (s : State) : (advanceBlock c s).rxTimer = s.rxTimer := rfl
@[simp] theorem advanceBlock_rxBitidx (c : Cfg) (s : State) : (advanceBlock c s).rxBitidx = s.rxBitidx := rfl
@[simp] theorem advanceBlock_rxWord (c : Cfg) (s : State) : (advanceBlock c s).rxWord = s.rxWord := rfl
@[simp] theorem advanceBlock_rxShift (c : Cfg) (s : State) : (advanceBlock c s).rxShift = s.rxShift := rfl
@[simp] theorem advanceBlock_rxState (c : Cfg) (s : State) : (advanceBlock c s).rxState = s.rxState := rfl
@[simp] theorem advanceBlock_rxBlockPos (c : Cfg) (s : State) : (advanceBlock c s).rxBlockPos = (s.rxBlockPos + 1) % c.params.captureBlock := rfl
@[simp] theorem advanceBlock_suppress (c : Cfg) (s : State) : (advanceBlock c s).suppress = s.suppress := rfl
@[simp] theorem advanceBlock_guardArmed (c : Cfg) (s : State) : (advanceBlock c s).guardArmed = s.guardArmed := rfl
@[simp] theorem advanceBlock_guardCount (c : Cfg) (s : State) : (advanceBlock c s).guardCount = s.guardCount := rfl
@[simp] theorem advanceBlock_txState (c : Cfg) (s : State) : (advanceBlock c s).txState = s.txState := rfl
@[simp] theorem advanceBlock_txShift (c : Cfg) (s : State) : (advanceBlock c s).txShift = s.txShift := rfl
@[simp] theorem advanceBlock_sending (c : Cfg) (s : State) : (advanceBlock c s).sending = s.sending := rfl
@[simp] theorem advanceBlock_phi (c : Cfg) (s : State) : (advanceBlock c s).phi = s.phi := rfl
@[simp] theorem advanceBlock_txPending (c : Cfg) (s : State) : (advanceBlock c s).txPending = s.txPending := rfl
@[simp] theorem advanceBlock_txFrame (c : Cfg) (s : State) : (advanceBlock c s).txFrame = s.txFrame := rfl
@[simp] theorem advanceBlock_queue (c : Cfg) (s : State) : (advanceBlock c s).queue = s.queue := rfl
@[simp] theorem advanceBlock_capCause (c : Cfg) (s : State) : (advanceBlock c s).capCause = s.capCause := rfl
@[simp] theorem advanceBlock_playCause (c : Cfg) (s : State) : (advanceBlock c s).playCause = s.playCause := rfl
@[simp] theorem advanceBlock_shutdownReq (c : Cfg) (s : State) : (advanceBlock c s).shutdownReq = s.shutdownReq := rfl
@[simp] theorem advanceBlock_trace (c : Cfg) (s : State) : (advanceBlock c s).trace = s.trace := rfl
@[simp] theorem advanceBlock_hostAccept (c : Cfg) (s : State) : (advanceBlock c s).hostAccept = s.hostAccept := rfl
@[simp] theorem advanceBlock_playSample (c : Cfg) (s : State) : (advanceBlock c s).playSample = s.playSample := rfl
@[simp] theorem advanceBlock_capHeld (c : Cfg) (s : State) : (advanceBlock c s).capHeld = s.capHeld := rfl
@[simp] theorem advanceBlock_capSample (c : Cfg) (s : State) : (advanceBlock c s).capSample = s.capSample := rfl
@[simp] theorem advanceBlock_stim (c : Cfg) (s : State) : (advanceBlock c s).stim = s.stim := rfl

/-! ## rxSampleStep -/

@[simp] theorem rxSampleStep_rxState (c : Cfg) (v : Sample) (s : State) : (rxSampleStep c v s).rxState = s.rxState := by
  simp [rxSampleStep]
@[simp] theorem rxSampleStep_txState (c : Cfg) (v : Sample) (s : State) : (rxSampleStep c v s).txState = s.txState := by
  simp [rxSampleStep]
@[simp] theorem rxSampleStep_txShift (c : Cfg) (v : Sample) (s : State) : (rxSampleStep c v s).txShift = s.txShift := by
  simp [rxSampleStep]
@[simp] theorem rxSampleStep_sending (c : Cfg) (v : Sample) (s : State) : (rxSampleStep c v s).sending = s.sending := by
  simp [rxSampleStep]
@[simp] theorem rxSampleStep_phi (c : Cfg) (v : Sample) (s : State) : (rxSampleStep c v s).phi = s.phi := by
  simp [rxSampleStep]
@[simp] theorem rxSampleStep_txPending (c : Cfg) (v : Sample) (s : State) : (rxSampleStep c v s).txPending = s.txPending := by
  simp [rxSampleStep]
@[simp] theorem rxSampleStep_txFrame (c : Cfg) (v : Sample) (s : State) : (rxSampleStep c v s).txFrame = s.txFrame := by
  simp [rxSampleStep]
@[simp] theorem rxSampleStep_queue (c : Cfg) (v : Sample) (s : State) : (rxSampleStep c v s).queue = s.queue := by
  simp [rxSampleStep]
@[simp] theorem rxSampleStep_capCause (c : Cfg) (v : Sample) (s : State) : (rxSampleStep c v s).capCause = s.capCause := by
  simp [rxSampleStep]
@[simp] theorem rxSampleStep_playCause (c : Cfg) (v : Sample) (s : State) : (rxSampleStep c v s).playCause = s.playCause := by
  simp [rxSampleStep]
@[simp] theorem rxSampleStep_shutdownReq (c : Cfg) (v : Sample) (s : State) : (rxSampleStep c v s).shutdownReq = s.shutdownReq := by
  simp [rxSampleStep]
@[simp] theorem rxSampleStep_hostAccept (c : Cfg) (v : Sample) (s : State) : (rxSampleStep c v s).hostAccept = s.hostAccept := by
  simp [rxSampleStep]
@[simp] theorem rxSampleStep_playSample (c : Cfg) (v : Sample) (s : State) : (rxSampleStep c v s).playSample = s.playSample := by
  simp [rxSampleStep]
@[simp] theorem rxSampleStep_capHeld (c : Cfg) (v : Sample) (s : State) : (rxSampleStep c v s).capHeld = s.capHeld := by
  simp [rxSampleStep]
@[simp] theorem rxSampleStep_capSample (c : Cfg) (v : Sample) (s : State) : (rxSampleStep c v s).capSample = s.capSample := by
  simp [rxSampleStep]
@[simp] theorem rxSampleStep_stim (c : Cfg) (v : Sample) (s : State) : (rxSampleStep c v s).stim = s.stim := by
  simp [rxSampleStep]

/-! ## rxHaltStep -/

@[simp] theorem rxHaltStep_bpfMark (s : State) : (rxHaltStep s).bpfMark = s.bpfMark := rfl
@[simp] theorem rxHaltStep_bpfSpace (s : State) : (rxHaltStep s).bpfSpace = s.bpfSpace := rfl
@[simp] theorem rxHaltStep_lpfMark (s : State) : (rxHaltStep s).lpfMark = s.lpfMark := rfl
@[simp] theorem rxHaltStep_lpfSpace (s : State) : (rxHaltStep s).lpfSpace = s.lpfSpace := rfl
@[simp] theorem rxHaltStep_rxPhase (s : State) : (rxHaltStep s).rxPhase = s.rxPhase := rfl
@[simp] theorem rxHaltStep_rxTimer (s : State) : (rxHaltStep s).rxTimer = s.rxTimer := rfl
@[simp] theorem rxHaltStep_rxBitidx (s : State) : (rxHaltStep s).rxBitidx = s.rxBitidx := rfl
@[simp] theorem rxHaltStep_rxWord (s : State) : (rxHaltStep s).rxWord = s.rxWord := rfl
@[simp] theorem rxHaltStep_rxShift (s : State) : (rxHaltStep s).rxShift = s.rxShift := rfl
@[simp] theorem rxHaltStep_rxState (s : State) : (rxHaltStep s).rxState = .halted := rfl
@[simp] theorem rxHaltStep_rxBlockPos (s : State) : (rxHaltStep s).rxBlockPos = s.rxBlockPos := rfl
@[simp] theorem rxHaltStep_suppress (s : State) : (rxHaltStep s).suppress = s.suppress := rfl
@[simp] theorem rxHaltStep_guardArmed (s : State) : (rxHaltStep s).guardArmed = s.guardArmed := rfl
@[simp] theorem rxHaltStep_guardCount (s : State) : (rxHaltStep s).guardCount = s.guardCount := rfl
@[simp] theorem rxHaltStep_txState (s : State) : (rxHaltStep s).txState = s.txState := rfl
@[simp] theorem rxHaltStep_txShift (s : State) : (rxHaltStep s).txShift = s.txShift := rfl
@[simp] theorem rxHaltStep_sending (s : State) : (rxHaltStep s).sending = s.sending := rfl
@[simp] theorem rxHaltStep_phi (s : State) : (rxHaltStep s).phi = s.phi := rfl
@[simp] theorem rxHaltStep_txPending (s : State) : (rxHaltStep s).txPending = s.txPending := rfl
@[simp] theorem rxHaltStep_txFrame (s : State) : (rxHaltStep s).txFrame = s.txFrame := rfl
@[simp] theorem rxHaltStep_queue (s : State) : (rxHaltStep s).queue = s.queue := rfl
@[simp] theorem rxHaltStep_capCause (s : State) : (rxHaltStep s).capCause = s.capCause := rfl
@[simp] theorem rxHaltStep_playCause (s : State) : (rxHaltStep s).playCause = s.playCause := rfl
@[simp] theorem rxHaltStep_shutdownReq (s : State) : (rxHaltStep s).shutdownReq = s.shutdownReq := rfl
@[simp] theorem rxHaltStep_trace (s : State) : (rxHaltStep s).trace = s.trace := rfl
@[simp] theorem rxHaltStep_hostAccept (s : State) : (rxHaltStep s).hostAccept = s.hostAccept := rfl
@[simp] theorem rxHaltStep_playSample (s : State) : (rxHaltStep s).playSample = s.playSample := rfl
@[simp] theorem rxHaltStep_capHeld (s : State) : (rxHaltStep s).capHeld = s.capHeld := rfl
@[simp] theorem rxHaltStep_capSample (s : State) : (rxHaltStep s).capSample = s.capSample := rfl
@[simp] theorem rxHaltStep_stim (s : State) : (rxHaltStep s).stim = s.stim := rfl

/-! ## encodeCharacter -/

@[simp] theorem encodeCharacter_bpfMark (c : Cfg) (ch : Char8) (s : State) : (encodeCharacter c ch s).bpfMark = s.bpfMark := by
  unfold encodeCharacter; repeat' split
  all_goals rfl
@[simp] theorem encodeCharacter_bpfSpace (c : Cfg) (ch : Char8) (s : State) : (encodeCharacter c ch s).bpfSpace = s.bpfSpace := by
  unfold encodeCharacter; repeat' split
  all_goals rfl
@[simp] theorem encodeCharacter_lpfMark (c : Cfg) (ch : Char8) (s : State) : (encodeCharacter c ch s).lpfMark = s.lpfMark := by
  unfold encodeCharacter; repeat' split
  all_goals rfl
@[simp] theorem encodeCharacter_lpfSpace (c : Cfg) (ch : Char8) (s : State) : (encodeCharacter c ch s).lpfSpace = s.lpfSpace := by
  unfold encodeCharacter; repeat' split
  all_goals rfl
@[simp] theorem encodeCharacter_rxPhase (c : Cfg) (ch : Char8) (s : State) : (encodeCharacter c ch s).rxPhase = s.rxPhase := by
  unfold encodeCharacter; repeat' split
  all_goals rfl
@[simp] theorem encodeCharacter_rxTimer (c : Cfg) (ch : Char8) (s : State) : (encodeCharacter c ch s).rxTimer = s.rxTimer := by
  unfold encodeCharacter; repeat' split
  all_goals rfl
@[simp] theorem encodeCharacter_rxBitidx (c : Cfg) (ch : Char8) (s : State) : (encodeCharacter c ch s).rxBitidx = s.rxBitidx := by
  unfold encodeCharacter; repeat' split
  all_goals rfl
@[simp] theorem encodeCharacter_rxWord (c : Cfg) (ch : Char8) (s : State) : (encodeCharacter c ch s).rxWord = s.rxWord := by
  unfold encodeCharacter; repeat' split
  all_goals rfl
@[simp] theorem encodeCharacter_rxShift (c : Cfg) (ch : Char8) (s : State) : (encodeCharacter c ch s).rxShift = s.rxShift := by
  unfold encodeCharacter; repeat' split
  all_goals rfl
@[simp] theorem encodeCharacter_rxState (c : Cfg) (ch : Char8) (s : State) : (encodeCharacter c ch s).rxState = s.rxState := by
  unfold encodeCharacter; repeat' split
  all_goals rfl
@[simp] theorem encodeCharacter_rxBlockPos (c : Cfg) (ch : Char8) (s : State) : (encodeCharacter c ch s).rxBlockPos = s.rxBlockPos := by
  unfold encodeCharacter; repeat' split
  all_goals rfl
@[simp] theorem encodeCharacter_suppress (c : Cfg) (ch : Char8) (s : State) : (encodeCharacter c ch s).suppress = s.suppress := by
  unfold encodeCharacter; repeat' split
  all_goals rfl
@[simp] theorem encodeCharacter_guardArmed (c : Cfg) (ch : Char8) (s : State) : (encodeCharacter c ch s).guardArmed = s.guardArmed := by
  unfold encodeCharacter; repeat' split
  all_goals rfl
@[simp] theorem encodeCharacter_guardCount (c : Cfg) (ch : Char8) (s : State) : (encodeCharacter c ch s).guardCount = s.guardCount := by
  unfold encodeCharacter; repeat' split
  all_goals rfl
@[simp] theorem encodeCharacter_txState (c : Cfg) (ch : Char8) (s : State) : (encodeCharacter c ch s).txState = s.txState := by
  unfold encodeCharacter; repeat' split
  all_goals rfl
@[simp] theorem encodeCharacter_sending (c : Cfg) (ch : Char8) (s : State) : (encodeCharacter c ch s).sending = s.sending := by
  unfold encodeCharacter; repeat' split
  all_goals rfl
@[simp] theorem encodeCharacter_phi (c : Cfg) (ch : Char8) (s : State) : (encodeCharacter c ch s).phi = s.phi := by
  unfold encodeCharacter; repeat' split
  all_goals rfl
@[simp] theorem encodeCharacter_txFrame (c : Cfg) (ch : Char8) (s : State) : (encodeCharacter c ch s).txFrame = s.txFrame := by
  unfold encodeCharacter; repeat' split
  all_goals rfl
@[simp] theorem encodeCharacter_queue (c : Cfg) (ch : Char8) (s : State) : (encodeCharacter c ch s).queue = s.queue := by
  unfold encodeCharacter; repeat' split
  all_goals rfl
@[simp] theorem encodeCharacter_capCause (c : Cfg) (ch : Char8) (s : State) : (encodeCharacter c ch s).capCause = s.capCause := by
  unfold encodeCharacter; repeat' split
  all_goals rfl
@[simp] theorem encodeCharacter_playCause (c : Cfg) (ch : Char8) (s : State) : (encodeCharacter c ch s).playCause = s.playCause := by
  unfold encodeCharacter; repeat' split
  all_goals rfl
@[simp] theorem encodeCharacter_shutdownReq (c : Cfg) (ch : Char8) (s : State) : (encodeCharacter c ch s).shutdownReq = s.shutdownReq := by
  unfold encodeCharacter; repeat' split
  all_goals rfl
@[simp] theorem encodeCharacter_hostAccept (c : Cfg) (ch : Char8) (s : State) : (encodeCharacter c ch s).hostAccept = s.hostAccept := by
  unfold encodeCharacter; repeat' split
  all_goals rfl
@[simp] theorem encodeCharacter_playSample (c : Cfg) (ch : Char8) (s : State) : (encodeCharacter c ch s).playSample = s.playSample := by
  unfold encodeCharacter; repeat' split
  all_goals rfl
@[simp] theorem encodeCharacter_capHeld (c : Cfg) (ch : Char8) (s : State) : (encodeCharacter c ch s).capHeld = s.capHeld := by
  unfold encodeCharacter; repeat' split
  all_goals rfl
@[simp] theorem encodeCharacter_capSample (c : Cfg) (ch : Char8) (s : State) : (encodeCharacter c ch s).capSample = s.capSample := by
  unfold encodeCharacter; repeat' split
  all_goals rfl
@[simp] theorem encodeCharacter_stim (c : Cfg) (ch : Char8) (s : State) : (encodeCharacter c ch s).stim = s.stim := by
  unfold encodeCharacter; repeat' split
  all_goals rfl

/-! ## loadFrame -/

@[simp] theorem loadFrame_bpfMark (s : State) : (loadFrame s).bpfMark = s.bpfMark := by
  unfold loadFrame; split <;> rfl
@[simp] theorem loadFrame_bpfSpace (s : State) : (loadFrame s).bpfSpace = s.bpfSpace := by
  unfold loadFrame; split <;> rfl
@[simp] theorem loadFrame_lpfMark (s : State) : (loadFrame s).lpfMark = s.lpfMark := by
  unfold loadFrame; split <;> rfl
@[simp] theorem loadFrame_lpfSpace (s : State) : (loadFrame s).lpfSpace = s.lpfSpace := by
  unfold loadFrame; split <;> rfl
@[simp] theorem loadFrame_rxPhase (s : State) : (loadFrame s).rxPhase = s.rxPhase := by
  unfold loadFrame; split <;> rfl
@[simp] theorem loadFrame_rxTimer (s : State) : (loadFrame s).rxTimer = s.rxTimer := by
  unfold loadFrame; split <;> rfl
@[simp] theorem loadFrame_rxBitidx (s : State) : (loadFrame s).rxBitidx = s.rxBitidx := by
  unfold loadFrame; split <;> rfl
@[simp] theorem loadFrame_rxWord (s : State) : (loadFrame s).rxWord = s.rxWord := by
  unfold loadFrame; split <;> rfl
@[simp] theorem loadFrame_rxShift (s : State) : (loadFrame s).rxShift = s.rxShift := by
  unfold loadFrame; split <;> rfl
@[simp] theorem loadFrame_rxState (s : State) : (loadFrame s).rxState = s.rxState := by
  unfold loadFrame; split <;> rfl
@[simp] theorem loadFrame_rxBlockPos (s : State) : (loadFrame s).rxBlockPos = s.rxBlockPos := by
  unfold loadFrame; split <;> rfl
@[simp] theorem loadFrame_suppress (s : State) : (loadFrame s).suppress = s.suppress := by
  unfold loadFrame; split <;> rfl
@[simp] theorem loadFrame_guardArmed (s : State) : (loadFrame s).guardArmed = s.guardArmed := by
  unfold loadFrame; split <;> rfl
@[simp] theorem loadFrame_guardCount (s : State) : (loadFrame s).guardCount = s.guardCount := by
  unfold loadFrame; split <;> rfl
@[simp] theorem loadFrame_txState (s : State) : (loadFrame s).txState = s.txState := by
  unfold loadFrame; split <;> rfl
@[simp] theorem loadFrame_txShift (s : State) : (loadFrame s).txShift = s.txShift := by
  unfold loadFrame; split <;> rfl
@[simp] theorem loadFrame_sending (s : State) : (loadFrame s).sending = s.sending := by
  unfold loadFrame; split <;> rfl
@[simp] theorem loadFrame_phi (s : State) : (loadFrame s).phi = s.phi := by
  unfold loadFrame; split <;> rfl
@[simp] theorem loadFrame_queue (s : State) : (loadFrame s).queue = s.queue := by
  unfold loadFrame; split <;> rfl
@[simp] theorem loadFrame_capCause (s : State) : (loadFrame s).capCause = s.capCause := by
  unfold loadFrame; split <;> rfl
@[simp] theorem loadFrame_playCause (s : State) : (loadFrame s).playCause = s.playCause := by
  unfold loadFrame; split <;> rfl
@[simp] theorem loadFrame_shutdownReq (s : State) : (loadFrame s).shutdownReq = s.shutdownReq := by
  unfold loadFrame; split <;> rfl
@[simp] theorem loadFrame_trace (s : State) : (loadFrame s).trace = s.trace := by
  unfold loadFrame; split <;> rfl
@[simp] theorem loadFrame_hostAccept (s : State) : (loadFrame s).hostAccept = s.hostAccept := by
  unfold loadFrame; split <;> rfl
@[simp] theorem loadFrame_playSample (s : State) : (loadFrame s).playSample = s.playSample := by
  unfold loadFrame; split <;> rfl
@[simp] theorem loadFrame_capHeld (s : State) : (loadFrame s).capHeld = s.capHeld := by
  unfold loadFrame; split <;> rfl
@[simp] theorem loadFrame_capSample (s : State) : (loadFrame s).capSample = s.capSample := by
  unfold loadFrame; split <;> rfl
@[simp] theorem loadFrame_stim (s : State) : (loadFrame s).stim = s.stim := by
  unfold loadFrame; split <;> rfl

/-! ## txLoadStep -/

@[simp] theorem txLoadStep_bpfMark (c : Cfg) (s : State) : (txLoadStep c s).bpfMark = s.bpfMark := by
  unfold txLoadStep; repeat' split
  all_goals simp
@[simp] theorem txLoadStep_bpfSpace (c : Cfg) (s : State) : (txLoadStep c s).bpfSpace = s.bpfSpace := by
  unfold txLoadStep; repeat' split
  all_goals simp
@[simp] theorem txLoadStep_lpfMark (c : Cfg) (s : State) : (txLoadStep c s).lpfMark = s.lpfMark := by
  unfold txLoadStep; repeat' split
  all_goals simp
@[simp] theorem txLoadStep_lpfSpace (c : Cfg) (s : State) : (txLoadStep c s).lpfSpace = s.lpfSpace := by
  unfold txLoadStep; repeat' split
  all_goals simp
@[simp] theorem txLoadStep_rxPhase (c : Cfg) (s : State) : (txLoadStep c s).rxPhase = s.rxPhase := by
  unfold txLoadStep; repeat' split
  all_goals simp
@[simp] theorem txLoadStep_rxTimer (c : Cfg) (s : State) : (txLoadStep c s).rxTimer = s.rxTimer := by
  unfold txLoadStep; repeat' split
  all_goals simp
@[simp] theorem txLoadStep_rxBitidx (c : Cfg) (s : State) : (txLoadStep c s).rxBitidx = s.rxBitidx := by
  unfold txLoadStep; repeat' split
  all_goals simp
@[simp] theorem txLoadStep_rxWord (c : Cfg) (s : State) : (txLoadStep c s).rxWord = s.rxWord := by
  unfold txLoadStep; repeat' split
  all_goals simp
@[simp] theorem txLoadStep_rxShift (c : Cfg) (s : State) : (txLoadStep c s).rxShift = s.rxShift := by
  unfold txLoadStep; repeat' split
  all_goals simp
@[simp] theorem txLoadStep_rxState (c : Cfg) (s : State) : (txLoadStep c s).rxState = s.rxState := by
  unfold txLoadStep; repeat' split
  all_goals simp
@[simp] theorem txLoadStep_rxBlockPos (c : Cfg) (s : State) : (txLoadStep c s).rxBlockPos = s.rxBlockPos := by
  unfold txLoadStep; repeat' split
  all_goals simp
@[simp] theorem txLoadStep_suppress (c : Cfg) (s : State) : (txLoadStep c s).suppress = s.suppress := by
  unfold txLoadStep; repeat' split
  all_goals simp
@[simp] theorem txLoadStep_guardArmed (c : Cfg) (s : State) : (txLoadStep c s).guardArmed = s.guardArmed := by
  unfold txLoadStep; repeat' split
  all_goals simp
@[simp] theorem txLoadStep_guardCount (c : Cfg) (s : State) : (txLoadStep c s).guardCount = s.guardCount := by
  unfold txLoadStep; repeat' split
  all_goals simp
@[simp] theorem txLoadStep_sending (c : Cfg) (s : State) : (txLoadStep c s).sending = s.sending := by
  unfold txLoadStep; repeat' split
  all_goals simp
@[simp] theorem txLoadStep_phi (c : Cfg) (s : State) : (txLoadStep c s).phi = s.phi := by
  unfold txLoadStep; repeat' split
  all_goals simp
@[simp] theorem txLoadStep_capCause (c : Cfg) (s : State) : (txLoadStep c s).capCause = s.capCause := by
  unfold txLoadStep; repeat' split
  all_goals simp
@[simp] theorem txLoadStep_playCause (c : Cfg) (s : State) : (txLoadStep c s).playCause = s.playCause := by
  unfold txLoadStep; repeat' split
  all_goals simp
@[simp] theorem txLoadStep_shutdownReq (c : Cfg) (s : State) : (txLoadStep c s).shutdownReq = s.shutdownReq := by
  unfold txLoadStep; repeat' split
  all_goals simp
@[simp] theorem txLoadStep_hostAccept (c : Cfg) (s : State) : (txLoadStep c s).hostAccept = s.hostAccept := by
  unfold txLoadStep; repeat' split
  all_goals simp
@[simp] theorem txLoadStep_playSample (c : Cfg) (s : State) : (txLoadStep c s).playSample = s.playSample := by
  unfold txLoadStep; repeat' split
  all_goals simp
@[simp] theorem txLoadStep_capHeld (c : Cfg) (s : State) : (txLoadStep c s).capHeld = s.capHeld := by
  unfold txLoadStep; repeat' split
  all_goals simp
@[simp] theorem txLoadStep_capSample (c : Cfg) (s : State) : (txLoadStep c s).capSample = s.capSample := by
  unfold txLoadStep; repeat' split
  all_goals simp
@[simp] theorem txLoadStep_stim (c : Cfg) (s : State) : (txLoadStep c s).stim = s.stim := by
  unfold txLoadStep; repeat' split
  all_goals simp

/-! ## txWakeStep -/

@[simp] theorem txWakeStep_bpfMark (s : State) : (txWakeStep s).bpfMark = s.bpfMark := rfl
@[simp] theorem txWakeStep_bpfSpace (s : State) : (txWakeStep s).bpfSpace = s.bpfSpace := rfl
@[simp] theorem txWakeStep_lpfMark (s : State) : (txWakeStep s).lpfMark = s.lpfMark := rfl
@[simp] theorem txWakeStep_lpfSpace (s : State) : (txWakeStep s).lpfSpace = s.lpfSpace := rfl
@[simp] theorem txWakeStep_rxPhase (s : State) : (txWakeStep s).rxPhase = s.rxPhase := rfl
@[simp] theorem txWakeStep_rxTimer (s : State) : (txWakeStep s).rxTimer = s.rxTimer := rfl
@[simp] theorem txWakeStep_rxBitidx (s : State) : (txWakeStep s).rxBitidx = s.rxBitidx := rfl
@[simp] theorem txWakeStep_rxWord (s : State) : (txWakeStep s).rxWord = s.rxWord := rfl
@[simp] theorem txWakeStep_rxShift (s : State) : (txWakeStep s).rxShift = s.rxShift := rfl
@[simp] theorem txWakeStep_rxState (s : State) : (txWakeStep s).rxState = s.rxState := rfl
@[simp] theorem txWakeStep_rxBlockPos (s : State) : (txWakeStep s).rxBlockPos = s.rxBlockPos := rfl
@[simp] theorem txWakeStep_suppress (s : State) : (txWakeStep s).suppress = true := rfl
@[simp] theorem txWakeStep_guardArmed (s : State) : (txWakeStep s).guardArmed = false := rfl
@[simp] theorem txWakeStep_guardCount (s : State) : (txWakeStep s).guardCount = 0 := rfl
@[simp] theorem txWakeStep_txState (s : State) : (txWakeStep s).txState = .sending := rfl
@[simp] theorem txWakeStep_txShift (s : State) : (txWakeStep s).txShift = s.txShift := rfl
@[simp] theorem txWakeStep_sending (s : State) : (txWakeStep s).sending = true := rfl
@[simp] theorem txWakeStep_phi (s : State) : (txWakeStep s).phi = s.phi := rfl
@[simp] theorem txWakeStep_txPending (s : State) : (txWakeStep s).txPending = s.txPending := rfl
@[simp] theorem txWakeStep_txFrame (s : State) : (txWakeStep s).txFrame = s.txFrame := rfl
@[simp] theorem txWakeStep_queue (s : State) : (txWakeStep s).queue = s.queue := rfl
@[simp] theorem txWakeStep_capCause (s : State) : (txWakeStep s).capCause = s.capCause := rfl
@[simp] theorem txWakeStep_playCause (s : State) : (txWakeStep s).playCause = s.playCause := rfl
@[simp] theorem txWakeStep_shutdownReq (s : State) : (txWakeStep s).shutdownReq = s.shutdownReq := rfl
@[simp] theorem txWakeStep_trace (s : State) : (txWakeStep s).trace = s.trace ++ [.sendingChanged true] := rfl
@[simp] theorem txWakeStep_hostAccept (s : State) : (txWakeStep s).hostAccept = s.hostAccept := rfl
@[simp] theorem txWakeStep_playSample (s : State) : (txWakeStep s).playSample = s.playSample := rfl
@[simp] theorem txWakeStep_capHeld (s : State) : (txWakeStep s).capHeld = s.capHeld := rfl
@[simp] theorem txWakeStep_capSample (s : State) : (txWakeStep s).capSample = s.capSample := rfl
@[simp] theorem txWakeStep_stim (s : State) : (txWakeStep s).stim = s.stim := rfl

/-! ## txAcceptSample -/

@[simp] theorem txAcceptSample_bpfMark (c : Cfg) (f : TxFrame) (s : State) : (txAcceptSample c f s).bpfMark = s.bpfMark := by
  simp only [txAcceptSample, synth, emit]
@[simp] theorem txAcceptSample_bpfSpace (c : Cfg) (f : TxFrame) (s : State) : (txAcceptSample c f s).bpfSpace = s.bpfSpace := by
  simp only [txAcceptSample, synth, emit]
@[simp] theorem txAcceptSample_lpfMark (c : Cfg) (f : TxFrame) (s : State) : (txAcceptSample c f s).lpfMark = s.lpfMark := by
  simp only [txAcceptSample, synth, emit]
@[simp] theorem txAcceptSample_lpfSpace (c : Cfg) (f : TxFrame) (s : State) : (txAcceptSample c f s).lpfSpace = s.lpfSpace := by
  simp only [txAcceptSample, synth, emit]
@[simp] theorem txAcceptSample_rxPhase (c : Cfg) (f : TxFrame) (s : State) : (txAcceptSample c f s).rxPhase = s.rxPhase := by
  simp only [txAcceptSample, synth, emit]
@[simp] theorem txAcceptSample_rxTimer (c : Cfg) (f : TxFrame) (s : State) : (txAcceptSample c f s).rxTimer = s.rxTimer := by
  simp only [txAcceptSample, synth, emit]
@[simp] theorem txAcceptSample_rxBitidx (c : Cfg) (f : TxFrame) (s : State) : (txAcceptSample c f s).rxBitidx = s.rxBitidx := by
  simp only [txAcceptSample, synth, emit]
@[simp] theorem txAcceptSample_rxWord (c : Cfg) (f : TxFrame) (s : State) : (txAcceptSample c f s).rxWord = s.rxWord := by
  simp only [txAcceptSample, synth, emit]
@[simp] theorem txAcceptSample_rxShift (c : Cfg) (f : TxFrame) (s : State) : (txAcceptSample c f s).rxShift = s.rxShift := by
  simp only [txAcceptSample, synth, emit]
@[simp] theorem txAcceptSample_rxState (c : Cfg) (f : TxFrame) (s : State) : (txAcceptSample c f s).rxState = s.rxState := by
  simp only [txAcceptSample, synth, emit]
@[simp] theorem txAcceptSample_rxBlockPos (c : Cfg) (f : TxFrame) (s : State) : (txAcceptSample c f s).rxBlockPos = s.rxBlockPos := by
  simp only [txAcceptSample, synth, emit]
@[simp] theorem txAcceptSample_suppress (c : Cfg) (f : TxFrame) (s : State) : (txAcceptSample c f s).suppress = s.suppress := by
  simp only [txAcceptSample, synth, emit]
@[simp] theorem txAcceptSample_guardArmed (c : Cfg) (f : TxFrame) (s : State) : (txAcceptSample c f s).guardArmed = s.guardArmed := by
  simp only [txAcceptSample, synth, emit]
@[simp] theorem txAcceptSample_guardCount (c : Cfg) (f : TxFrame) (s : State) : (txAcceptSample c f s).guardCount = s.guardCount := by
  simp only [txAcceptSample, synth, emit]
@[simp] theorem txAcceptSample_txState (c : Cfg) (f : TxFrame) (s : State) : (txAcceptSample c f s).txState = s.txState := by
  simp only [txAcceptSample, synth, emit]
@[simp] theorem txAcceptSample_txShift (c : Cfg) (f : TxFrame) (s : State) : (txAcceptSample c f s).txShift = s.txShift := by
  simp only [txAcceptSample, synth, emit]
@[simp] theorem txAcceptSample_sending (c : Cfg) (f : TxFrame) (s : State) : (txAcceptSample c f s).sending = s.sending := by
  simp only [txAcceptSample, synth, emit]
@[simp] theorem txAcceptSample_phi (c : Cfg) (f : TxFrame) (s : State) : (txAcceptSample c f s).phi = nextPhase c (cellBit f.code f.cell) s.phi := by
  simp only [txAcceptSample, synth, emit]
@[simp] theorem txAcceptSample_txPending (c : Cfg) (f : TxFrame) (s : State) : (txAcceptSample c f s).txPending = s.txPending := by
  simp only [txAcceptSample, synth, emit]
@[simp] theorem txAcceptSample_txFrame (c : Cfg) (f : TxFrame) (s : State) : (txAcceptSample c f s).txFrame = nextFrame f := by
  simp only [txAcceptSample, synth, emit]
@[simp] theorem txAcceptSample_queue (c : Cfg) (f : TxFrame) (s : State) : (txAcceptSample c f s).queue = s.queue := by
  simp only [txAcceptSample, synth, emit]
@[simp] theorem txAcceptSample_capCause (c : Cfg) (f : TxFrame) (s : State) : (txAcceptSample c f s).capCause = s.capCause := by
  simp only [txAcceptSample, synth, emit]
@[simp] theorem txAcceptSample_playCause (c : Cfg) (f : TxFrame) (s : State) : (txAcceptSample c f s).playCause = s.playCause := by
  simp only [txAcceptSample, synth, emit]
@[simp] theorem txAcceptSample_shutdownReq (c : Cfg) (f : TxFrame) (s : State) : (txAcceptSample c f s).shutdownReq = s.shutdownReq := by
  simp only [txAcceptSample, synth, emit]
@[simp] theorem txAcceptSample_trace (c : Cfg) (f : TxFrame) (s : State) : (txAcceptSample c f s).trace = s.trace ++ [.sample (synthSample c s)] := by
  simp only [txAcceptSample, synth, emit]
@[simp] theorem txAcceptSample_hostAccept (c : Cfg) (f : TxFrame) (s : State) : (txAcceptSample c f s).hostAccept = s.hostAccept := by
  simp only [txAcceptSample, synth, emit]
@[simp] theorem txAcceptSample_playSample (c : Cfg) (f : TxFrame) (s : State) : (txAcceptSample c f s).playSample = synthSample c s := by
  simp only [txAcceptSample, synth, emit]
@[simp] theorem txAcceptSample_capHeld (c : Cfg) (f : TxFrame) (s : State) : (txAcceptSample c f s).capHeld = s.capHeld := by
  simp only [txAcceptSample, synth, emit]
@[simp] theorem txAcceptSample_capSample (c : Cfg) (f : TxFrame) (s : State) : (txAcceptSample c f s).capSample = s.capSample := by
  simp only [txAcceptSample, synth, emit]
@[simp] theorem txAcceptSample_stim (c : Cfg) (f : TxFrame) (s : State) : (txAcceptSample c f s).stim = s.stim := by
  simp only [txAcceptSample, synth, emit]

/-! ## txResumeStep -/

@[simp] theorem txResumeStep_bpfMark (s : State) : (txResumeStep s).bpfMark = s.bpfMark := rfl
@[simp] theorem txResumeStep_bpfSpace (s : State) : (txResumeStep s).bpfSpace = s.bpfSpace := rfl
@[simp] theorem txResumeStep_lpfMark (s : State) : (txResumeStep s).lpfMark = s.lpfMark := rfl
@[simp] theorem txResumeStep_lpfSpace (s : State) : (txResumeStep s).lpfSpace = s.lpfSpace := rfl
@[simp] theorem txResumeStep_rxPhase (s : State) : (txResumeStep s).rxPhase = s.rxPhase := rfl
@[simp] theorem txResumeStep_rxTimer (s : State) : (txResumeStep s).rxTimer = s.rxTimer := rfl
@[simp] theorem txResumeStep_rxBitidx (s : State) : (txResumeStep s).rxBitidx = s.rxBitidx := rfl
@[simp] theorem txResumeStep_rxWord (s : State) : (txResumeStep s).rxWord = s.rxWord := rfl
@[simp] theorem txResumeStep_rxShift (s : State) : (txResumeStep s).rxShift = s.rxShift := rfl
@[simp] theorem txResumeStep_rxState (s : State) : (txResumeStep s).rxState = s.rxState := rfl
@[simp] theorem txResumeStep_rxBlockPos (s : State) : (txResumeStep s).rxBlockPos = s.rxBlockPos := rfl
@[simp] theorem txResumeStep_suppress (s : State) : (txResumeStep s).suppress = s.suppress := rfl
@[simp] theorem txResumeStep_guardArmed (s : State) : (txResumeStep s).guardArmed = s.guardArmed := rfl
@[simp] theorem txResumeStep_guardCount (s : State) : (txResumeStep s).guardCount = s.guardCount := rfl
@[simp] theorem txResumeStep_txState (s : State) : (txResumeStep s).txState = .sending := rfl
@[simp] theorem txResumeStep_txShift (s : State) : (txResumeStep s).txShift = s.txShift := rfl
@[simp] theorem txResumeStep_sending (s : State) : (txResumeStep s).sending = s.sending := rfl
@[simp] theorem txResumeStep_phi (s : State) : (txResumeStep s).phi = s.phi := rfl
@[simp] theorem txResumeStep_txPending (s : State) : (txResumeStep s).txPending = s.txPending := rfl
@[simp] theorem txResumeStep_txFrame (s : State) : (txResumeStep s).txFrame = s.txFrame := rfl
@[simp] theorem txResumeStep_queue (s : State) : (txResumeStep s).queue = s.queue := rfl
@[simp] theorem txResumeStep_capCause (s : State) : (txResumeStep s).capCause = s.capCause := rfl
@[simp] theorem txResumeStep_playCause (s : State) : (txResumeStep s).playCause = s.playCause := rfl
@[simp] theorem txResumeStep_shutdownReq (s : State) : (txResumeStep s).shutdownReq = s.shutdownReq := rfl
@[simp] theorem txResumeStep_trace (s : State) : (txResumeStep s).trace = s.trace := rfl
@[simp] theorem txResumeStep_hostAccept (s : State) : (txResumeStep s).hostAccept = s.hostAccept := rfl
@[simp] theorem txResumeStep_playSample (s : State) : (txResumeStep s).playSample = s.playSample := rfl
@[simp] theorem txResumeStep_capHeld (s : State) : (txResumeStep s).capHeld = s.capHeld := rfl
@[simp] theorem txResumeStep_capSample (s : State) : (txResumeStep s).capSample = s.capSample := rfl
@[simp] theorem txResumeStep_stim (s : State) : (txResumeStep s).stim = s.stim := rfl

/-! ## txStopStep -/

@[simp] theorem txStopStep_bpfMark (c : Cfg) (s : State) : (txStopStep c s).bpfMark = s.bpfMark := by
  simp [txStopStep]
@[simp] theorem txStopStep_bpfSpace (c : Cfg) (s : State) : (txStopStep c s).bpfSpace = s.bpfSpace := by
  simp [txStopStep]
@[simp] theorem txStopStep_lpfMark (c : Cfg) (s : State) : (txStopStep c s).lpfMark = s.lpfMark := by
  simp [txStopStep]
@[simp] theorem txStopStep_lpfSpace (c : Cfg) (s : State) : (txStopStep c s).lpfSpace = s.lpfSpace := by
  simp [txStopStep]
@[simp] theorem txStopStep_rxPhase (c : Cfg) (s : State) : (txStopStep c s).rxPhase = s.rxPhase := by
  simp [txStopStep]
@[simp] theorem txStopStep_rxTimer (c : Cfg) (s : State) : (txStopStep c s).rxTimer = s.rxTimer := by
  simp [txStopStep]
@[simp] theorem txStopStep_rxBitidx (c : Cfg) (s : State) : (txStopStep c s).rxBitidx = s.rxBitidx := by
  simp [txStopStep]
@[simp] theorem txStopStep_rxWord (c : Cfg) (s : State) : (txStopStep c s).rxWord = s.rxWord := by
  simp [txStopStep]
@[simp] theorem txStopStep_rxShift (c : Cfg) (s : State) : (txStopStep c s).rxShift = s.rxShift := by
  simp [txStopStep]
@[simp] theorem txStopStep_rxState (c : Cfg) (s : State) : (txStopStep c s).rxState = s.rxState := by
  simp [txStopStep]
@[simp] theorem txStopStep_rxBlockPos (c : Cfg) (s : State) : (txStopStep c s).rxBlockPos = s.rxBlockPos := by
  simp [txStopStep]
@[simp] theorem txStopStep_txState (c : Cfg) (s : State) : (txStopStep c s).txState = .idle := rfl
@[simp] theorem txStopStep_txShift (c : Cfg) (s : State) : (txStopStep c s).txShift = s.txShift := by
  simp [txStopStep]
@[simp] theorem txStopStep_phi (c : Cfg) (s : State) : (txStopStep c s).phi = s.phi := by
  simp [txStopStep]
@[simp] theorem txStopStep_txPending (c : Cfg) (s : State) : (txStopStep c s).txPending = s.txPending := by
  simp [txStopStep]
@[simp] theorem txStopStep_txFrame (c : Cfg) (s : State) : (txStopStep c s).txFrame = s.txFrame := by
  simp [txStopStep]
@[simp] theorem txStopStep_queue (c : Cfg) (s : State) : (txStopStep c s).queue = s.queue := by
  simp [txStopStep]
@[simp] theorem txStopStep_capCause (c : Cfg) (s : State) : (txStopStep c s).capCause = s.capCause := by
  simp [txStopStep]
@[simp] theorem txStopStep_playCause (c : Cfg) (s : State) : (txStopStep c s).playCause = s.playCause := by
  simp [txStopStep]
@[simp] theorem txStopStep_shutdownReq (c : Cfg) (s : State) : (txStopStep c s).shutdownReq = s.shutdownReq := by
  simp [txStopStep]
@[simp] theorem txStopStep_hostAccept (c : Cfg) (s : State) : (txStopStep c s).hostAccept = s.hostAccept := by
  simp [txStopStep]
@[simp] theorem txStopStep_playSample (c : Cfg) (s : State) : (txStopStep c s).playSample = s.playSample := by
  simp [txStopStep]
@[simp] theorem txStopStep_capHeld (c : Cfg) (s : State) : (txStopStep c s).capHeld = s.capHeld := by
  simp [txStopStep]
@[simp] theorem txStopStep_capSample (c : Cfg) (s : State) : (txStopStep c s).capSample = s.capSample := by
  simp [txStopStep]
@[simp] theorem txStopStep_stim (c : Cfg) (s : State) : (txStopStep c s).stim = s.stim := by
  simp [txStopStep]

/-! ## hostEnqStep -/

@[simp] theorem hostEnqStep_bpfMark (c : Cfg) (text : List Char8) (s : State) : (hostEnqStep c text s).bpfMark = s.bpfMark := by
  unfold hostEnqStep; split <;> rfl
@[simp] theorem hostEnqStep_bpfSpace (c : Cfg) (text : List Char8) (s : State) : (hostEnqStep c text s).bpfSpace = s.bpfSpace := by
  unfold hostEnqStep; split <;> rfl
@[simp] theorem hostEnqStep_lpfMark (c : Cfg) (text : List Char8) (s : State) : (hostEnqStep c text s).lpfMark = s.lpfMark := by
  unfold hostEnqStep; split <;> rfl
@[simp] theorem hostEnqStep_lpfSpace (c : Cfg) (text : List Char8) (s : State) : (hostEnqStep c text s).lpfSpace = s.lpfSpace := by
  unfold hostEnqStep; split <;> rfl
@[simp] theorem hostEnqStep_rxPhase (c : Cfg) (text : List Char8) (s : State) : (hostEnqStep c text s).rxPhase = s.rxPhase := by
  unfold hostEnqStep; split <;> rfl
@[simp] theorem hostEnqStep_rxTimer (c : Cfg) (text : List Char8) (s : State) : (hostEnqStep c text s).rxTimer = s.rxTimer := by
  unfold hostEnqStep; split <;> rfl
@[simp] theorem hostEnqStep_rxBitidx (c : Cfg) (text : List Char8) (s : State) : (hostEnqStep c text s).rxBitidx = s.rxBitidx := by
  unfold hostEnqStep; split <;> rfl
@[simp] theorem hostEnqStep_rxWord (c : Cfg) (text : List Char8) (s : State) : (hostEnqStep c text s).rxWord = s.rxWord := by
  unfold hostEnqStep; split <;> rfl
@[simp] theorem hostEnqStep_rxShift (c : Cfg) (text : List Char8) (s : State) : (hostEnqStep c text s).rxShift = s.rxShift := by
  unfold hostEnqStep; split <;> rfl
@[simp] theorem hostEnqStep_rxState (c : Cfg) (text : List Char8) (s : State) : (hostEnqStep c text s).rxState = s.rxState := by
  unfold hostEnqStep; split <;> rfl
@[simp] theorem hostEnqStep_rxBlockPos (c : Cfg) (text : List Char8) (s : State) : (hostEnqStep c text s).rxBlockPos = s.rxBlockPos := by
  unfold hostEnqStep; split <;> rfl
@[simp] theorem hostEnqStep_suppress (c : Cfg) (text : List Char8) (s : State) : (hostEnqStep c text s).suppress = s.suppress := by
  unfold hostEnqStep; split <;> rfl
@[simp] theorem hostEnqStep_guardArmed (c : Cfg) (text : List Char8) (s : State) : (hostEnqStep c text s).guardArmed = s.guardArmed := by
  unfold hostEnqStep; split <;> rfl
@[simp] theorem hostEnqStep_guardCount (c : Cfg) (text : List Char8) (s : State) : (hostEnqStep c text s).guardCount = s.guardCount := by
  unfold hostEnqStep; split <;> rfl
@[simp] theorem hostEnqStep_txState (c : Cfg) (text : List Char8) (s : State) : (hostEnqStep c text s).txState = s.txState := by
  unfold hostEnqStep; split <;> rfl
@[simp] theorem hostEnqStep_txShift (c : Cfg) (text : List Char8) (s : State) : (hostEnqStep c text s).txShift = s.txShift := by
  unfold hostEnqStep; split <;> rfl
@[simp] theorem hostEnqStep_sending (c : Cfg) (text : List Char8) (s : State) : (hostEnqStep c text s).sending = s.sending := by
  unfold hostEnqStep; split <;> rfl
@[simp] theorem hostEnqStep_phi (c : Cfg) (text : List Char8) (s : State) : (hostEnqStep c text s).phi = s.phi := by
  unfold hostEnqStep; split <;> rfl
@[simp] theorem hostEnqStep_txPending (c : Cfg) (text : List Char8) (s : State) : (hostEnqStep c text s).txPending = s.txPending := by
  unfold hostEnqStep; split <;> rfl
@[simp] theorem hostEnqStep_txFrame (c : Cfg) (text : List Char8) (s : State) : (hostEnqStep c text s).txFrame = s.txFrame := by
  unfold hostEnqStep; split <;> rfl
@[simp] theorem hostEnqStep_capCause (c : Cfg) (text : List Char8) (s : State) : (hostEnqStep c text s).capCause = s.capCause := by
  unfold hostEnqStep; split <;> rfl
@[simp] theorem hostEnqStep_playCause (c : Cfg) (text : List Char8) (s : State) : (hostEnqStep c text s).playCause = s.playCause := by
  unfold hostEnqStep; split <;> rfl
@[simp] theorem hostEnqStep_shutdownReq (c : Cfg) (text : List Char8) (s : State) : (hostEnqStep c text s).shutdownReq = s.shutdownReq := by
  unfold hostEnqStep; split <;> rfl
@[simp] theorem hostEnqStep_trace (c : Cfg) (text : List Char8) (s : State) : (hostEnqStep c text s).trace = s.trace := by
  unfold hostEnqStep; split <;> rfl
@[simp] theorem hostEnqStep_playSample (c : Cfg) (text : List Char8) (s : State) : (hostEnqStep c text s).playSample = s.playSample := by
  unfold hostEnqStep; split <;> rfl
@[simp] theorem hostEnqStep_capHeld (c : Cfg) (text : List Char8) (s : State) : (hostEnqStep c text s).capHeld = s.capHeld := by
  unfold hostEnqStep; split <;> rfl
@[simp] theorem hostEnqStep_capSample (c : Cfg) (text : List Char8) (s : State) : (hostEnqStep c text s).capSample = s.capSample := by
  unfold hostEnqStep; split <;> rfl
@[simp] theorem hostEnqStep_stim (c : Cfg) (text : List Char8) (s : State) : (hostEnqStep c text s).stim = s.stim := by
  unfold hostEnqStep; split <;> rfl

/-! ## shutdownStep -/

@[simp] theorem shutdownStep_bpfMark (s : State) : (shutdownStep s).bpfMark = s.bpfMark := rfl
@[simp] theorem shutdownStep_bpfSpace (s : State) : (shutdownStep s).bpfSpace = s.bpfSpace := rfl
@[simp] theorem shutdownStep_lpfMark (s : State) : (shutdownStep s).lpfMark = s.lpfMark := rfl
@[simp] theorem shutdownStep_lpfSpace (s : State) : (shutdownStep s).lpfSpace = s.lpfSpace := rfl
@[simp] theorem shutdownStep_rxPhase (s : State) : (shutdownStep s).rxPhase = s.rxPhase := rfl
@[simp] theorem shutdownStep_rxTimer (s : State) : (shutdownStep s).rxTimer = s.rxTimer := rfl
@[simp] theorem shutdownStep_rxBitidx (s : State) : (shutdownStep s).rxBitidx = s.rxBitidx := rfl
@[simp] theorem shutdownStep_rxWord (s : State) : (shutdownStep s).rxWord = s.rxWord := rfl
@[simp] theorem shutdownStep_rxShift (s : State) : (shutdownStep s).rxShift = s.rxShift := rfl
@[simp] theorem shutdownStep_rxState (s : State) : (shutdownStep s).rxState = s.rxState := rfl
@[simp] theorem shutdownStep_rxBlockPos (s : State) : (shutdownStep s).rxBlockPos = s.rxBlockPos := rfl
@[simp] theorem shutdownStep_suppress (s : State) : (shutdownStep s).suppress = s.suppress := rfl
@[simp] theorem shutdownStep_guardArmed (s : State) : (shutdownStep s).guardArmed = s.guardArmed := rfl
@[simp] theorem shutdownStep_guardCount (s : State) : (shutdownStep s).guardCount = s.guardCount := rfl
@[simp] theorem shutdownStep_txState (s : State) : (shutdownStep s).txState = s.txState := rfl
@[simp] theorem shutdownStep_txShift (s : State) : (shutdownStep s).txShift = s.txShift := rfl
@[simp] theorem shutdownStep_sending (s : State) : (shutdownStep s).sending = s.sending := rfl
@[simp] theorem shutdownStep_phi (s : State) : (shutdownStep s).phi = s.phi := rfl
@[simp] theorem shutdownStep_txPending (s : State) : (shutdownStep s).txPending = s.txPending := rfl
@[simp] theorem shutdownStep_txFrame (s : State) : (shutdownStep s).txFrame = s.txFrame := rfl
@[simp] theorem shutdownStep_queue (s : State) : (shutdownStep s).queue = s.queue := rfl
@[simp] theorem shutdownStep_capCause (s : State) : (shutdownStep s).capCause = s.capCause := rfl
@[simp] theorem shutdownStep_playCause (s : State) : (shutdownStep s).playCause = s.playCause := rfl
@[simp] theorem shutdownStep_shutdownReq (s : State) : (shutdownStep s).shutdownReq = true := rfl
@[simp] theorem shutdownStep_trace (s : State) : (shutdownStep s).trace = s.trace := rfl
@[simp] theorem shutdownStep_hostAccept (s : State) : (shutdownStep s).hostAccept = s.hostAccept := rfl
@[simp] theorem shutdownStep_playSample (s : State) : (shutdownStep s).playSample = s.playSample := rfl
@[simp] theorem shutdownStep_capHeld (s : State) : (shutdownStep s).capHeld = s.capHeld := rfl
@[simp] theorem shutdownStep_capSample (s : State) : (shutdownStep s).capSample = s.capSample := rfl
@[simp] theorem shutdownStep_stim (s : State) : (shutdownStep s).stim = s.stim := rfl

end Sys2Proof.Machine
end

