-- ==== Sys2Proof/Laws/Ops.lean ====
section
/-! SUPPORT. What each shared operation can do, said once: later proofs cite these cases and do not unfold the
operation. -/

namespace Sys2Proof.Machine

open Config (Cfg)

/-! ## The coordinator -/

/-- COORD_TICK: no guard, a guard that goes on, or a guard that expires. -/
theorem coordTick_cases (s : State) :
    (s.guardArmed = false ∧ coordTick s = s) ∨
    (s.guardArmed = true ∧ 2 ≤ s.guardCount ∧ coordTick s = { s with guardCount := s.guardCount - 1 }) ∨
    (s.guardArmed = true ∧ s.guardCount ≤ 1 ∧
      coordTick s = { s with guardCount := 0, guardArmed := false, suppress := false }) := by
  unfold coordTick
  split
  · split
    · exact .inr (.inr ⟨‹_›, by omega, rfl⟩)
    · exact .inr (.inl ⟨‹_›, by omega, rfl⟩)
  · exact .inl ⟨Bool.eq_false_iff.2 ‹¬_›, rfl⟩

/-- COORD_STOP under the guarded policy. -/
theorem coordStop_guarded (c : Cfg) (s : State) (h : c.params.guardSamples ≠ 0) :
    coordStop c s = { s with guardArmed := true, guardCount := c.params.guardSamples } := by
  simp [coordStop, h]

/-- COORD_STOP under the immediate policy. -/
theorem coordStop_immediate (c : Cfg) (s : State) (h : c.params.guardSamples = 0) :
    coordStop c s = { s with suppress := false } := by
  simp [coordStop, h]

@[simp] theorem hw_guardSamples : hw.params.guardSamples = 4096 := rfl
@[simp] theorem hw_captureBlock : hw.params.captureBlock = 2048 := rfl
@[simp] theorem hw_queueDepth : hw.params.queueDepth = none := rfl
@[simp] theorem hw_hasShutdown : hw.params.hasShutdown = true := rfl
@[simp] theorem samplesPerBit_eq : Config.samplesPerBit = 177 := rfl
@[simp] theorem startDelay_eq : Config.startDelay = 265 := rfl
@[simp] theorem frameSamples_eq : Config.frameSamples = 1239 := rfl

/-- COORD_STOP on this hardware arms the guard. -/
theorem coordStop_hw (s : State) : coordStop hw s = { s with guardArmed := true, guardCount := 4096 } := by
  simp [coordStop]

/-! ## Leaving service -/

/-- The stop notification on this hardware. -/
theorem stopSending_hw (s : State) :
    stopSending hw s =
      { s with sending := false, trace := s.trace ++ [.sendingChanged false], guardArmed := true, guardCount := 4096 } := by
  simp [stopSending, coordStop_hw, emit]

/-- LEAVE_SERVICE of a path that was sending. -/
theorem leaveService_of_sending (final : TxState) (s : State) (h : s.sending = true) :
    leaveService hw final s =
      { s with
        txFrame := none, txPending := [], sending := false, trace := s.trace ++ [.sendingChanged false]
        guardArmed := true, guardCount := 4096, txState := final } := by
  simp [leaveService, h, stopSending_hw]

/-- LEAVE_SERVICE of a path that was not sending. -/
theorem leaveService_of_not_sending (c : Cfg) (final : TxState) (s : State) (h : s.sending = false) :
    leaveService c final s = { s with txFrame := none, txPending := [], txState := final } := by
  simp [leaveService, h]

/-! ## The demodulator -/

/-- DECODE: a shift code sets the mode, any other code emits one character. -/
theorem decodeCharacter_cases (c : Cfg) (code : Code) (s : State) :
    (code = figsCode ∧ decodeCharacter c code s = { s with rxShift := .figs }) ∨
    (code = ltrsCode ∧ decodeCharacter c code s = { s with rxShift := .ltrs }) ∨
    (code ≠ figsCode ∧ code ≠ ltrsCode ∧
      decodeCharacter c code s = emit (.rxChar (fwd c.params s.rxShift code)) s) := by
  unfold decodeCharacter
  split
  · exact .inl ⟨‹_›, rfl⟩
  · split
    · exact .inr (.inl ⟨‹_›, rfl⟩)
    · exact .inr (.inr ⟨‹_›, ‹_›, rfl⟩)

/-- STOP_BIT: both outcomes return to AWAIT. -/
theorem stopBit_cases (c : Cfg) (b : Bool) (s : State) :
    (b = true ∧ stopBit c b s = rxClear (decodeCharacter c s.rxWord s)) ∨
    (b = false ∧ stopBit c b s = rxClear (emit (.framingError s.rxWord) s)) := by
  cases b <;> simp [stopBit]

/-- AWAIT_STEP: a frame starts, or nothing changes. -/
theorem awaitStep_cases (c : Cfg) (nrz : F64) (s : State) :
    (isStart c nrz = true ∧
      awaitStep c nrz s = { s with rxPhase := .framing, rxTimer := Config.startDelay, rxBitidx := 0, rxWord := 0 }) ∨
    (isStart c nrz = false ∧ awaitStep c nrz s = s) := by
  unfold awaitStep
  split
  · exact .inl ⟨‹_›, rfl⟩
  · exact .inr ⟨Bool.eq_false_iff.2 ‹¬_›, rfl⟩

/-- FRAMING_STEP: the timer runs, or a data bit is decided, or the stop bit is. -/
theorem framingStep_cases (c : Cfg) (nrz : F64) (s : State) :
    (2 ≤ s.rxTimer ∧ framingStep c nrz s = { s with rxTimer := s.rxTimer - 1 }) ∨
    (s.rxTimer ≤ 1 ∧ s.rxBitidx < 5 ∧
      framingStep c nrz s = dataBit (isMark nrz) { s with rxTimer := Config.samplesPerBit }) ∨
    (s.rxTimer ≤ 1 ∧ 5 ≤ s.rxBitidx ∧
      framingStep c nrz s = stopBit c (isMark nrz) { s with rxTimer := Config.samplesPerBit }) := by
  unfold framingStep
  dsimp only
  split
  · split
    · exact .inr (.inl ⟨by omega, ‹_›, rfl⟩)
    · exact .inr (.inr ⟨by omega, by omega, rfl⟩)
  · exact .inl ⟨by omega, rfl⟩

/-- DEMOD: suppressed, waiting, or framing. -/
theorem demod_cases (c : Cfg) (nrz : F64) (s : State) :
    (s.suppress = true ∧ demod c nrz s = rxClear s) ∨
    (s.suppress = false ∧ s.rxPhase = .await ∧ demod c nrz s = awaitStep c nrz s) ∨
    (s.suppress = false ∧ s.rxPhase = .framing ∧ demod c nrz s = framingStep c nrz s) := by
  unfold demod
  split
  · exact .inl ⟨‹_›, rfl⟩
  · cases h : s.rxPhase
    · exact .inr (.inl ⟨Bool.eq_false_iff.2 ‹¬_›, rfl, rfl⟩)
    · exact .inr (.inr ⟨Bool.eq_false_iff.2 ‹¬_›, rfl, rfl⟩)

/-- When RX_SAMPLE(smp) decodes `code`, in terms of the state before it. -/
theorem decodesWord_iff (c : Cfg) (code : Code) (smp : Sample) (s : State) :
    decodesWord c code smp s = true ↔
      rxSampleEnabled s = true ∧ (coordTick s).suppress = false ∧ s.rxPhase = .framing ∧ s.rxTimer ≤ 1 ∧
        5 ≤ s.rxBitidx ∧ isMark (detect c (sampleValue smp) (coordTick s)).2 = true ∧ s.rxWord = code := by
  simp only [decodesWord, Bool.and_eq_true, Bool.not_eq_true', beq_iff_eq, decide_eq_true_eq, detect_suppress,
    detect_rxPhase, detect_rxTimer, detect_rxBitidx, detect_rxWord, coordTick_rxPhase, coordTick_rxTimer,
    coordTick_rxBitidx, coordTick_rxWord, and_assoc, Nat.sub_eq_zero_iff_le]

/-- The bit timer does not outlive a decoded frame. -/
theorem rxClear_decodeCharacter_rxTimer (c : Cfg) (code : Code) (n : Nat) (s : State) :
    rxClear (decodeCharacter c code { s with rxTimer := n }) = rxClear (decodeCharacter c code s) := by
  rcases decodeCharacter_cases c code s with ⟨rfl, h⟩ | ⟨rfl, h⟩ | ⟨hf, hl, h⟩ <;> rw [h]
  · rfl
  · rfl
  · simp [decodeCharacter, hf, hl, emit, rxClear]

/-- DEMOD on the sample that decides a stop bit as mark: the word is decoded and the frame is over. -/
theorem demod_of_stop_mark (c : Cfg) (nrz : F64) (s : State) (hs : s.suppress = false) (hp : s.rxPhase = .framing)
    (ht : s.rxTimer ≤ 1) (hb : 5 ≤ s.rxBitidx) (hm : isMark nrz = true) :
    demod c nrz s = rxClear (decodeCharacter c s.rxWord s) := by
  rcases demod_cases c nrz s with ⟨h, -⟩ | ⟨-, h, -⟩ | ⟨-, -, h⟩
  · rw [hs] at h; cases h
  · rw [hp] at h; cases h
  rcases framingStep_cases c nrz s with ⟨h2, -⟩ | ⟨-, h2, -⟩ | ⟨-, -, h2⟩
  · omega
  · omega
  rw [h, h2, hm]
  exact rxClear_decodeCharacter_rxTimer c s.rxWord Config.samplesPerBit s

/-- What RX_SAMPLE does when it decodes `code`. -/
theorem rxSampleStep_of_decodesWord (c : Cfg) (code : Code) (smp : Sample) (s : State)
    (h : decodesWord c code smp s = true) :
    rxSampleStep c smp s =
      advanceBlock c (rxClear (decodeCharacter c code (detect c (sampleValue smp) (coordTick s)).1)) := by
  obtain ⟨-, hs, hp, ht, hb, hm, rfl⟩ := (decodesWord_iff c code smp s).1 h
  unfold rxSampleStep
  dsimp only
  rw [demod_of_stop_mark c _ _ (by simpa using hs) (by simpa using hp) (by simpa using ht) (by simpa using hb) hm]
  simp only [detect_rxWord, coordTick_rxWord]

/-- What RX_SAMPLE(smp) decodes does not depend on the sample that is present. -/
theorem decodesWord_capSample (c : Cfg) (code : Code) (smp : Sample) (present : Option Sample) (s : State) :
    decodesWord c code smp { s with capSample := present } = decodesWord c code smp s := by
  unfold decodesWord coordTick
  split
  · split <;> rfl
  · rfl

/-- DECODE is enabled: a sample is present, its RX_SAMPLE decodes the word, and that RX_SAMPLE is the step. -/
theorem decodeEnabled_cases (c : Cfg) (code : Code) (s : State) (h : decodeEnabled c code s = true) :
    ∃ smp, s.capSample = some smp ∧ decodesWord c code smp s = true ∧
      decodeStep c s = rxSampleStep c smp { s with capSample := none } := by
  unfold decodeEnabled at h
  unfold decodeStep
  cases hs : s.capSample with
  | none => rw [hs] at h; cases h
  | some smp => rw [hs] at h; exact ⟨smp, rfl, h, rfl⟩

/-! ## The modulator -/

/-- ENCODE: skipped, or pending with a shift code, or pending without. -/
theorem encodeCharacter_cases (c : Cfg) (ch : Char8) (s : State) :
    (rev c.params ch = none ∧ encodeCharacter c ch s = emit (.skipped ch) s) ∨
    (∃ k sel, rev c.params ch = some (k, sel) ∧ sel ≠ s.txShift ∧
      encodeCharacter c ch s = { s with txPending := [shiftCode sel, k], txShift := sel }) ∨
    (∃ k, rev c.params ch = some (k, s.txShift) ∧ encodeCharacter c ch s = { s with txPending := [k] }) := by
  unfold encodeCharacter
  cases h : rev c.params ch with
  | none => exact .inl ⟨rfl, rfl⟩
  | some r =>
    obtain ⟨k, sel⟩ := r
    by_cases hs : sel = s.txShift
    · subst hs; exact .inr (.inr ⟨k, rfl, by simp⟩)
    · exact .inr (.inl ⟨k, sel, rfl, hs, by simp [hs]⟩)

/-- LOAD_FRAME: nothing pending, or the first pending code becomes the frame. -/
theorem loadFrame_cases (s : State) :
    (s.txPending = [] ∧ loadFrame s = s) ∨
    (∃ code rest, s.txPending = code :: rest ∧
      loadFrame s = { s with txPending := rest, txFrame := some ⟨code, 0, 0⟩ }) := by
  unfold loadFrame
  cases h : s.txPending with
  | nil => exact .inl ⟨rfl, rfl⟩
  | cons code rest => exact .inr ⟨code, rest, rfl, rfl⟩

/-- TX_LOAD: a pending code is framed, the queue is found empty, or a character is taken. -/
theorem txLoadStep_cases (c : Cfg) (s : State) :
    (s.txPending ≠ [] ∧ txLoadStep c s = loadFrame s) ∨
    (s.txPending = [] ∧ s.queue = [] ∧ txLoadStep c s = { s with txState := .draining }) ∨
    (∃ ch rest, s.txPending = [] ∧ s.queue = ch :: rest ∧
      txLoadStep c s = loadFrame (encodeCharacter c ch { s with queue := rest })) := by
  unfold txLoadStep
  cases hp : s.txPending with
  | cons code more => exact .inl ⟨by simp, rfl⟩
  | nil =>
    cases hq : s.queue with
    | nil => exact .inr (.inl ⟨rfl, rfl, rfl⟩)
    | cons ch rest => exact .inr (.inr ⟨ch, rest, rfl, rfl, rfl⟩)

/-- TX_SAMPLE when it is enabled: the sample is taken, or cause 3 is raised. -/
theorem txSampleStep_cases (c : Cfg) (resp : PlayResp) (s : State) (h : txSampleEnabled resp s = true) :
    ∃ f, s.txFrame = some f ∧
      ((resp = .accept ∧ txSampleStep c resp s = txAcceptSample c f s) ∨
       (resp = .stall ∧ txSampleStep c resp s = raiseFault c causeStall s)) := by
  cases hf : s.txFrame with
  | none => simp [txSampleEnabled, hf] at h
  | some f =>
    refine ⟨f, rfl, ?_⟩
    cases resp <;> simp [txSampleEnabled, answersSample, effectiveResp] at h <;>
      simp [txSampleStep, effectiveResp, hf]

/-- A fault of the transmit path (causes 2 and 3). -/
theorem raiseFault_transmit (c : Cfg) (cause : Cause) (s : State) (h : cause ≠ causeCapture) :
    raiseFault c cause s = txFault c cause s := by
  simp [raiseFault, h]

/-- A fault of the capture path (cause 1). -/
theorem raiseFault_capture (c : Cfg) (s : State) :
    raiseFault c causeCapture s =
      { s with capCause := causeCapture, trace := s.trace ++ [.error causeCapture], rxState := .fault } := by
  simp [raiseFault, emit]

/-! ## The queue -/

/-- Pushing a text appends it. -/
theorem pushText_eq (q text : List Char8) : pushText q text = q ++ text := by
  unfold pushText
  induction text generalizing q with
  | nil => simp
  | cons c rest ih => simp [ih, pushChar]

/-- HOST_ENQ on this hardware always has room. -/
theorem hostEnqStep_hw (text : List Char8) (s : State) :
    hostEnqStep hw text s = { s with queue := s.queue ++ text, hostAccept := true } := by
  simp [hostEnqStep, hostEnqEnabled, hasRoom, pushText_eq]

end Sys2Proof.Machine
end

