-- ==== Sys2Proof/Laws/PerInstr.lean ====
section
/-! SUPPORT. Lemmas made per instruction: one for each constructor of `Instr`. -/

namespace Sys2Proof.Laws

/-- The stimulus the encoder writes is of the instruction's own format: a CODE5 row's code word in a byte with the
upper three bits zero (R84), a line's word, which is the word that triggers it (R96, R98), and for an OP row its name,
since it has no word of its own (log entry 7). -/
def Carriers.Statement (i : Instr) : Prop :=
  (∀ k, i.codeWord? = some k → encode i = .code (k.setWidth 8)) ∧
  (i.isLine = true → ∃ w, encode i = .word w ∧ (i.wellFormed = true → triggerWord i = some w)) ∧
  (i.codeWord? = none → i.isLine = false → encode i = .op i)

theorem Carriers.code00 : Carriers.Statement .code00 :=
  ⟨fun _ h => by cases h; rfl, nofun, nofun⟩
theorem Carriers.code01 : Carriers.Statement .code01 :=
  ⟨fun _ h => by cases h; rfl, nofun, nofun⟩
theorem Carriers.code02 : Carriers.Statement .code02 :=
  ⟨fun _ h => by cases h; rfl, nofun, nofun⟩
theorem Carriers.code03 : Carriers.Statement .code03 :=
  ⟨fun _ h => by cases h; rfl, nofun, nofun⟩
theorem Carriers.code04 : Carriers.Statement .code04 :=
  ⟨fun _ h => by cases h; rfl, nofun, nofun⟩
theorem Carriers.code05 : Carriers.Statement .code05 :=
  ⟨fun _ h => by cases h; rfl, nofun, nofun⟩
theorem Carriers.code06 : Carriers.Statement .code06 :=
  ⟨fun _ h => by cases h; rfl, nofun, nofun⟩
theorem Carriers.code07 : Carriers.Statement .code07 :=
  ⟨fun _ h => by cases h; rfl, nofun, nofun⟩
theorem Carriers.code08 : Carriers.Statement .code08 :=
  ⟨fun _ h => by cases h; rfl, nofun, nofun⟩
theorem Carriers.code09 : Carriers.Statement .code09 :=
  ⟨fun _ h => by cases h; rfl, nofun, nofun⟩
theorem Carriers.code0A : Carriers.Statement .code0A :=
  ⟨fun _ h => by cases h; rfl, nofun, nofun⟩
theorem Carriers.code0B : Carriers.Statement .code0B :=
  ⟨fun _ h => by cases h; rfl, nofun, nofun⟩
theorem Carriers.code0C : Carriers.Statement .code0C :=
  ⟨fun _ h => by cases h; rfl, nofun, nofun⟩
theorem Carriers.code0D : Carriers.Statement .code0D :=
  ⟨fun _ h => by cases h; rfl, nofun, nofun⟩
theorem Carriers.code0E : Carriers.Statement .code0E :=
  ⟨fun _ h => by cases h; rfl, nofun, nofun⟩
theorem Carriers.code0F : Carriers.Statement .code0F :=
  ⟨fun _ h => by cases h; rfl, nofun, nofun⟩
theorem Carriers.code10 : Carriers.Statement .code10 :=
  ⟨fun _ h => by cases h; rfl, nofun, nofun⟩
theorem Carriers.code11 : Carriers.Statement .code11 :=
  ⟨fun _ h => by cases h; rfl, nofun, nofun⟩
theorem Carriers.code12 : Carriers.Statement .code12 :=
  ⟨fun _ h => by cases h; rfl, nofun, nofun⟩
theorem Carriers.code13 : Carriers.Statement .code13 :=
  ⟨fun _ h => by cases h; rfl, nofun, nofun⟩
theorem Carriers.code14 : Carriers.Statement .code14 :=
  ⟨fun _ h => by cases h; rfl, nofun, nofun⟩
theorem Carriers.code15 : Carriers.Statement .code15 :=
  ⟨fun _ h => by cases h; rfl, nofun, nofun⟩
theorem Carriers.code16 : Carriers.Statement .code16 :=
  ⟨fun _ h => by cases h; rfl, nofun, nofun⟩
theorem Carriers.code17 : Carriers.Statement .code17 :=
  ⟨fun _ h => by cases h; rfl, nofun, nofun⟩
theorem Carriers.code18 : Carriers.Statement .code18 :=
  ⟨fun _ h => by cases h; rfl, nofun, nofun⟩
theorem Carriers.code19 : Carriers.Statement .code19 :=
  ⟨fun _ h => by cases h; rfl, nofun, nofun⟩
theorem Carriers.code1A : Carriers.Statement .code1A :=
  ⟨fun _ h => by cases h; rfl, nofun, nofun⟩
theorem Carriers.code1B : Carriers.Statement .code1B :=
  ⟨fun _ h => by cases h; rfl, nofun, nofun⟩
theorem Carriers.code1C : Carriers.Statement .code1C :=
  ⟨fun _ h => by cases h; rfl, nofun, nofun⟩
theorem Carriers.code1D : Carriers.Statement .code1D :=
  ⟨fun _ h => by cases h; rfl, nofun, nofun⟩
theorem Carriers.code1E : Carriers.Statement .code1E :=
  ⟨fun _ h => by cases h; rfl, nofun, nofun⟩
theorem Carriers.code1F : Carriers.Statement .code1F :=
  ⟨fun _ h => by cases h; rfl, nofun, nofun⟩
theorem Carriers.reset (capOk : Bool) (playOk : Bool) : Carriers.Statement (.reset capOk playOk) :=
  ⟨nofun, fun _ => ⟨_, rfl, fun _ => rfl⟩, nofun⟩
theorem Carriers.sample (v : Sample) : Carriers.Statement (.sample v) :=
  ⟨nofun, fun _ => ⟨_, rfl, fun _ => rfl⟩, nofun⟩
theorem Carriers.push (c : Char8) : Carriers.Statement (.push c) :=
  ⟨nofun, fun _ => ⟨_, rfl, fun _ => rfl⟩, nofun⟩
theorem Carriers.txtick (resp : PlayResp) (drained : Bool) : Carriers.Statement (.txtick resp drained) :=
  ⟨nofun, fun _ => ⟨_, rfl, fun h => by cases resp <;> first | rfl | cases h⟩, nofun⟩
theorem Carriers.shutdown : Carriers.Statement .shutdown :=
  ⟨nofun, fun _ => ⟨_, rfl, fun _ => rfl⟩, nofun⟩
theorem Carriers.opReset (capOk : Bool) (playOk : Bool) : Carriers.Statement (.opReset capOk playOk) :=
  ⟨nofun, nofun, fun _ _ => rfl⟩
theorem Carriers.rxSample (v : Sample) : Carriers.Statement (.rxSample v) :=
  ⟨nofun, nofun, fun _ _ => rfl⟩
theorem Carriers.rxHalt : Carriers.Statement .rxHalt :=
  ⟨nofun, nofun, fun _ _ => rfl⟩
theorem Carriers.decode (code : Code) : Carriers.Statement (.decode code) :=
  ⟨nofun, nofun, fun _ _ => rfl⟩
theorem Carriers.hostEnq (text : List Char8) : Carriers.Statement (.hostEnq text) :=
  ⟨nofun, nofun, fun _ _ => rfl⟩
theorem Carriers.txWake : Carriers.Statement .txWake :=
  ⟨nofun, nofun, fun _ _ => rfl⟩
theorem Carriers.txLoad : Carriers.Statement .txLoad :=
  ⟨nofun, nofun, fun _ _ => rfl⟩
theorem Carriers.txSample (resp : PlayResp) : Carriers.Statement (.txSample resp) :=
  ⟨nofun, nofun, fun _ _ => rfl⟩
theorem Carriers.txResume : Carriers.Statement .txResume :=
  ⟨nofun, nofun, fun _ _ => rfl⟩
theorem Carriers.txStop (drained : Bool) : Carriers.Statement (.txStop drained) :=
  ⟨nofun, nofun, fun _ _ => rfl⟩
theorem Carriers.txHalt : Carriers.Statement .txHalt :=
  ⟨nofun, nofun, fun _ _ => rfl⟩
theorem Carriers.opShutdown : Carriers.Statement .opShutdown :=
  ⟨nofun, nofun, fun _ _ => rfl⟩

end Sys2Proof.Laws
end

