-- ==== Sys2Proof/Laws/Run.lean ====
section
/-! SUPPORT. What `exec` and `step` can do, said once. -/

namespace Sys2Proof.Machine

open Config (Cfg)

/-- An operation presented by name answers a next state exactly when it is enabled. -/
theorem whenEnabled_next (m : String) (e : Bool) (t u : State) :
    whenEnabled m e t = .next u ↔ e = true ∧ u = t := by
  cases e <;> simp [whenEnabled, eq_comm]

/-- A decoded code word is one RX_SAMPLE, which is enabled, of the sample that is present. -/
theorem runDecode_next (m : String) (code : Code) (s t : State) (h : runDecode hw m code s = .next t) :
    rxSampleEnabled s = true ∧ ∃ v, s.capSample = some v ∧ t = rxSampleStep hw v { s with capSample := none } := by
  obtain ⟨h1, h2⟩ := (whenEnabled_next _ _ _ _).1 h
  obtain ⟨v, hv, hd, he⟩ := decodeEnabled_cases hw code s h1
  exact ⟨((decodesWord_iff hw code v s).1 hd).1, v, hv, h2.trans he⟩

/-- The hardware's own configuration is legal. -/
theorem legal_hw : legal hw.params = true := by decide +kernel

/-- RESET on this hardware always has its effect. -/
theorem runReset_hw (capOk playOk : Bool) (s : State) :
    runReset hw capOk playOk s = .next (resetBlock hw capOk playOk s) := by
  simp [runReset, resetEnabled, legal_hw]

/-- The TX operation chosen is one that is enabled. -/
theorem txChoice_enabled (resp : PlayResp) (drained : Bool) (s : State) (op : TxOp)
    (h : txChoice resp drained s = some op) : txEnabled resp drained s op = true :=
  List.find?_some h

/-- What a SAMPLE line can do. -/
theorem sampleLine_cases (c : Cfg) (v : Sample) (s : State) :
    (rxSampleEnabled s = true ∧ sampleLine c v s = rxSampleStep c v s) ∨
    (rxHaltEnabled s = true ∧ sampleLine c v s = rxHaltStep s) ∨
    (rxSampleEnabled s = false ∧ rxHaltEnabled s = false ∧ sampleLine c v s = s) := by
  unfold sampleLine
  cases h1 : rxSampleEnabled s <;> cases h2 : rxHaltEnabled s <;> simp

/-- What a TXTICK line can do. -/
theorem txtickLine_cases (c : Cfg) (resp : PlayResp) (drained : Bool) (s : State) :
    (∃ op, txChoice resp drained s = some op ∧ txtickLine c resp drained s = txStep c resp s op) ∨
    (txChoice resp drained s = none ∧ txtickLine c resp drained s = s) := by
  unfold txtickLine
  cases h : txChoice resp drained s with
  | none => exact .inr ⟨rfl, rfl⟩
  | some op => exact .inl ⟨op, rfl, rfl⟩

/-- Everything an instruction can do when it answers a next state. -/
theorem exec_next_cases (i : Instr) (s t : State) (h : exec i s = .next t) :
    (performsReset i = true ∧ ∃ capOk playOk, t = resetBlock hw capOk playOk s) ∨
    (performsReceive i = true ∧
      ((rxSampleEnabled s = true ∧ ∃ v, t = rxSampleStep hw v s ∨ t = rxSampleStep hw v { s with capSample := none }) ∨
       (rxHaltEnabled s = true ∧ t = rxHaltStep s) ∨ t = s)) ∨
    (performsTransmit i = true ∧
      ((∃ resp drained op, txEnabled resp drained s op = true ∧ t = txStep hw resp s op) ∨ t = s)) ∨
    ((∃ text, t = hostEnqStep hw text s) ∨ t = shutdownStep s) := by
  cases i <;> simp only [exec] at h
  case reset a b =>
    rw [execReset, runReset_hw] at h; cases h
    exact .inl ⟨rfl, a, b, rfl⟩
  case opReset a b =>
    rw [execOpReset, runReset_hw] at h; cases h
    exact .inl ⟨rfl, a, b, rfl⟩
  case sample v =>
    cases h
    rcases sampleLine_cases hw v s with ⟨h1, h2⟩ | ⟨h1, h2⟩ | ⟨-, -, h2⟩
    · exact .inr (.inl ⟨rfl, .inl ⟨h1, v, .inl h2⟩⟩)
    · exact .inr (.inl ⟨rfl, .inr (.inl ⟨h1, h2⟩)⟩)
    · exact .inr (.inl ⟨rfl, .inr (.inr h2)⟩)
  case rxSample v =>
    obtain ⟨h1, h2⟩ := (whenEnabled_next _ _ _ _).1 h
    exact .inr (.inl ⟨rfl, .inl ⟨h1, v, .inl h2⟩⟩)
  case rxHalt =>
    obtain ⟨h1, h2⟩ := (whenEnabled_next _ _ _ _).1 h
    exact .inr (.inl ⟨rfl, .inr (.inl ⟨h1, h2⟩)⟩)
  case push c => cases h; exact .inr (.inr (.inr (.inl ⟨_, rfl⟩)))
  case hostEnq text => cases h; exact .inr (.inr (.inr (.inl ⟨_, rfl⟩)))
  case shutdown =>
    cases h
    exact .inr (.inr (.inr (.inr (by simp [shutdownLine, shutdownEnabled]))))
  case opShutdown =>
    exact .inr (.inr (.inr (.inr ((whenEnabled_next _ _ _ _).1 h).2)))
  case txtick resp drained =>
    cases h
    rcases txtickLine_cases hw resp drained s with ⟨op, h1, h2⟩ | ⟨-, h2⟩
    · exact .inr (.inr (.inl ⟨rfl, .inl ⟨resp, drained, op, txChoice_enabled _ _ _ _ h1, h2⟩⟩))
    · exact .inr (.inr (.inl ⟨rfl, .inr h2⟩))
  case txWake =>
    obtain ⟨h1, h2⟩ := (whenEnabled_next _ _ _ _).1 h
    exact .inr (.inr (.inl ⟨rfl, .inl ⟨.accept, false, .wake, h1, h2⟩⟩))
  case txLoad =>
    obtain ⟨h1, h2⟩ := (whenEnabled_next _ _ _ _).1 h
    exact .inr (.inr (.inl ⟨rfl, .inl ⟨.accept, false, .load, h1, h2⟩⟩))
  case txSample resp =>
    obtain ⟨h1, h2⟩ := (whenEnabled_next _ _ _ _).1 h
    exact .inr (.inr (.inl ⟨rfl, .inl ⟨resp, false, .sample, h1, h2⟩⟩))
  case txResume =>
    obtain ⟨h1, h2⟩ := (whenEnabled_next _ _ _ _).1 h
    exact .inr (.inr (.inl ⟨rfl, .inl ⟨.accept, false, .resume, h1, h2⟩⟩))
  case txStop drained =>
    obtain ⟨h1, h2⟩ := (whenEnabled_next _ _ _ _).1 h
    exact .inr (.inr (.inl ⟨rfl, .inl ⟨.accept, drained, .stop, h1, h2⟩⟩))
  case txHalt =>
    obtain ⟨h1, h2⟩ := (whenEnabled_next _ _ _ _).1 h
    exact .inr (.inr (.inl ⟨rfl, .inl ⟨.accept, false, .halt, h1, h2⟩⟩))
  all_goals
    obtain ⟨h1, v, -, h2⟩ := runDecode_next _ _ _ _ h
    exact .inr (.inl ⟨rfl, .inl ⟨h1, v, .inr h2⟩⟩)

/-! ## Fetching -/

theorem fetch_nil (s : State) (h : s.stim = []) : fetch s = .idle := by
  simp [fetch, h]

theorem fetch_word (s : State) (w : BitVec 32) (rest : List Stimulus) (h : s.stim = .word w :: rest) :
    fetch s = fetchDecoded (decodeWord w) { s with stim := rest } := by
  simp [fetch, h]

theorem fetch_code (s : State) (b : Byte) (rest : List Stimulus) (h : s.stim = .code b :: rest) :
    fetch s = fetchDecoded (decodeCode b) { s with stim := rest } := by
  simp [fetch, h]

theorem fetch_op (s : State) (i : Instr) (rest : List Stimulus) (h : s.stim = .op i :: rest) :
    fetch s = fetchDecoded (decodeNamed i) { s with stim := rest } := by
  simp [fetch, h]

theorem fetch_byte (s : State) (b : Byte) (rest : List Stimulus) (h : s.stim = .byte b :: rest) :
    fetch s = fetchByte b { s with stim := rest } := by
  simp [fetch, h]

theorem fetch_offer (s : State) (v : Sample) (rest : List Stimulus) (h : s.stim = .offer v :: rest) :
    fetch s = .held { s with stim := rest, capSample := some v } := by
  simp [fetch, h]

/-- A decoded stimulus that answers a next state runs as its instruction. -/
theorem carryOut_fetchDecoded (d : Except DecodeError Instr) (s0 s t : State)
    (h : carryOut s0 (fetchDecoded d s) = .next t) : ∃ i, d = .ok i ∧ exec i s = .next t := by
  cases d with
  | error e => simp [fetchDecoded, carryOut] at h
  | ok i => exact ⟨i, rfl, h⟩

/-- Everything a step can do when it answers a next state: wait, hold a byte, be offered a sample, or carry out an instruction on
the state past its stimulus, in which only the schedule and the held byte have changed. -/
theorem step_next_cases (s t : State) (h : step s = .next t) :
    (s.stim = [] ∧ t = s) ∨
    (∃ b rest, s.stim = .byte b :: rest ∧ s.capHeld = none ∧ t = { s with stim := rest, capHeld := some b }) ∨
    (∃ v rest, s.stim = .offer v :: rest ∧ t = { s with stim := rest, capSample := some v }) ∨
    (∃ i rest held, exec i { s with stim := rest, capHeld := held } = .next t) := by
  unfold step at h
  cases hs : s.stim with
  | nil => rw [fetch_nil s hs] at h; cases h; exact .inl ⟨rfl, rfl⟩
  | cons st rest =>
    cases st with
    | byte b =>
      rw [fetch_byte s b rest hs] at h
      cases hc : s.capHeld with
      | none =>
        simp [fetchByte, hc, carryOut] at h
        exact .inr (.inl ⟨b, rest, rfl, rfl, h.symm⟩)
      | some b0 =>
        simp [fetchByte, hc, carryOut] at h
        exact .inr (.inr (.inr ⟨_, rest, none, h⟩))
    | word w =>
      rw [fetch_word s w rest hs] at h
      obtain ⟨i, -, hi⟩ := carryOut_fetchDecoded _ _ _ _ h
      exact .inr (.inr (.inr ⟨i, rest, s.capHeld, hi⟩))
    | offer v =>
      rw [fetch_offer s v rest hs] at h
      cases h
      exact .inr (.inr (.inl ⟨v, rest, rfl, rfl⟩))
    | code b =>
      rw [fetch_code s b rest hs] at h
      obtain ⟨i, -, hi⟩ := carryOut_fetchDecoded _ _ _ _ h
      exact .inr (.inr (.inr ⟨i, rest, s.capHeld, hi⟩))
    | op j =>
      rw [fetch_op s j rest hs] at h
      obtain ⟨i, -, hi⟩ := carryOut_fetchDecoded _ _ _ _ h
      exact .inr (.inr (.inr ⟨i, rest, s.capHeld, hi⟩))

end Sys2Proof.Machine
end

