-- ==== Sys2Proof/Tests/Slice0.lean ====
section
/-! SUPPORT. The session's own tests: words written out from the spec's encodings, the spec's vectors
(spec/95_test_vectors.md, named V1 to V21 below), and for every statement with hypotheses a state that meets
them. Expected values are the spec's. -/

namespace Sys2Proof.Tests

open Sys2Proof Sys2Proof.Machine

-- One theorem after another: many kernel evaluations waiting at once, each with a stack of its own, exhaust memory.
set_option Elab.async false

/-! ## Helpers -/

/-- The next state, if there is one. -/
def nextOf (r : Result) : Option State :=
  match r with
  | .next s => some s
  | .fault _ => none
  | .refused _ => none

/-- One field of the next state. -/
def after {α : Type} (f : State → α) (i : Instr) (s : State) : Option α := (nextOf (exec i s)).map f

/-- The refusal, if there is one. -/
def refusalOf (r : Result) : Option Refusal :=
  match r with
  | .next _ => none
  | .fault _ => none
  | .refused q => some q

/-- What a stimulus word decodes to, none where it is refused. -/
def wordInstr (w : BitVec 32) : Option Instr := (decodeWord w).toOption

/-- The reset state while sending, with a frame or without. -/
def sendingState (frame : Option TxFrame) : State :=
  { State.reset with txState := .sending, sending := true, suppress := true, txFrame := frame }

/-- The reset state in DRAINING. -/
def drainingState : State := { State.reset with txState := .draining, sending := true, suppress := true }

/-- The reset state with a request to shut down. -/
def stoppingState : State := { State.reset with shutdownReq := true }

/-- The reset state in FRAMING. -/
def framingState (timer bitidx : Nat) (word : Code) : State :=
  { State.reset with rxPhase := .framing, rxTimer := timer, rxBitidx := bitidx, rxWord := word }

/-- The reset state with the stop bit of a frame to be decided on a sample of 0 that is present, and a mark envelope
of 1.0. -/
def stopBitState (shift : Shift) (word : Code) : State :=
  { framingState 1 5 word with rxShift := shift, lpfMark := ⟨[F64.zero], [F64.real 1]⟩, capSample := some 0 }

/-! ## Decoding and encoding -/

/-- V18. -/
theorem test_decode_words_of_v18 :
    wordInstr 0x00000003 = some (.reset true true) ∧ wordInstr 0x00000002 = some (.reset false true) ∧
    wordInstr 0x00000001 = some (.reset true false) ∧ wordInstr 0x10000000 = some (.sample 0) ∧
    wordInstr 0x1000FFFF = some (.sample (-1)) ∧ wordInstr 0x10007FFF = some (.sample 32767) ∧
    wordInstr 0x10008000 = some (.sample (-32768)) ∧ wordInstr 0x20000045 = some (.push 0x45) ∧
    wordInstr 0x20000031 = some (.push 0x31) ∧ wordInstr 0x30000000 = some (.txtick .accept false) ∧
    wordInstr 0x30000004 = some (.txtick .accept true) ∧ wordInstr 0x30000001 = some (.txtick .busy false) ∧
    wordInstr 0x30000002 = some (.txtick .stall false) ∧ wordInstr 0x40000000 = some .shutdown := by decide

/-- The refused words of V18, and the ends of the reserved range. -/
theorem test_refused_words_of_v18 :
    wordInstr 0x30000003 = none ∧ wordInstr 0x10010000 = none ∧ wordInstr 0x00000004 = none ∧
    wordInstr 0x40000001 = none ∧ wordInstr 0x50000000 = none ∧ wordInstr 0xFFFFFFFF = none ∧
    wordInstr 0x20000100 = none ∧ wordInstr 0x30000008 = none := by decide

/-- The 32 code words of R86, bit by bit. -/
theorem test_decode_code_words :
    decodeTableWord 8 0b00000 = some .code00 ∧
    decodeTableWord 8 0b00001 = some .code01 ∧
    decodeTableWord 8 0b00010 = some .code02 ∧
    decodeTableWord 8 0b00011 = some .code03 ∧
    decodeTableWord 8 0b00100 = some .code04 ∧
    decodeTableWord 8 0b00101 = some .code05 ∧
    decodeTableWord 8 0b00110 = some .code06 ∧
    decodeTableWord 8 0b00111 = some .code07 ∧
    decodeTableWord 8 0b01000 = some .code08 ∧
    decodeTableWord 8 0b01001 = some .code09 ∧
    decodeTableWord 8 0b01010 = some .code0A ∧
    decodeTableWord 8 0b01011 = some .code0B ∧
    decodeTableWord 8 0b01100 = some .code0C ∧
    decodeTableWord 8 0b01101 = some .code0D ∧
    decodeTableWord 8 0b01110 = some .code0E ∧
    decodeTableWord 8 0b01111 = some .code0F ∧
    decodeTableWord 8 0b10000 = some .code10 ∧
    decodeTableWord 8 0b10001 = some .code11 ∧
    decodeTableWord 8 0b10010 = some .code12 ∧
    decodeTableWord 8 0b10011 = some .code13 ∧
    decodeTableWord 8 0b10100 = some .code14 ∧
    decodeTableWord 8 0b10101 = some .code15 ∧
    decodeTableWord 8 0b10110 = some .code16 ∧
    decodeTableWord 8 0b10111 = some .code17 ∧
    decodeTableWord 8 0b11000 = some .code18 ∧
    decodeTableWord 8 0b11001 = some .code19 ∧
    decodeTableWord 8 0b11010 = some .code1A ∧
    decodeTableWord 8 0b11011 = some .code1B ∧
    decodeTableWord 8 0b11100 = some .code1C ∧
    decodeTableWord 8 0b11101 = some .code1D ∧
    decodeTableWord 8 0b11110 = some .code1E ∧
    decodeTableWord 8 0b11111 = some .code1F := by decide

/-- A code word has five bits: a set bit above them is refused. -/
theorem test_code_byte_with_a_sixth_bit : decodeTableWord 8 0b00100001 = none ∧ decodeTableWord 8 0b10000000 = none := by
  decide

/-- The OP rows' words are their lines' words (R94). -/
theorem test_op_rows_decode_to_their_lines :
    decodeTableWord 32 0x00000000 = some (.reset false false) ∧ decodeTableWord 32 0x10000000 = some (.sample 0) ∧
    decodeTableWord 32 0x20000000 = some (.push 0) ∧ decodeTableWord 32 0x30000000 = some (.txtick .accept false) ∧
    decodeTableWord 32 0x40000000 = some .shutdown := by decide

/-- The OP rows presented by name. -/
theorem test_op_rows_by_name :
    ([.opReset true false, .rxSample 5, .rxHalt, .decode 0x1B, .hostEnq [0x53, 0x4F], .txWake, .txLoad,
      .txSample .busy, .txResume, .txStop true, .txHalt, .opShutdown] : List Instr).all
      (fun i => (decodeStimulus (.op i)).map Except.toOption == some (some i)) = true := by decide

/-- The encoder writes the words of V18. -/
theorem test_encode_words :
    encode (.reset true false) = .word 0x00000001 ∧ encode (.sample (-32768)) = .word 0x10008000 ∧
    encode (.push 0x31) = .word 0x20000031 ∧ encode (.txtick .stall true) = .word 0x30000006 ∧
    encode .shutdown = .word 0x40000000 ∧ encode .code1A = .code 0b00011010 := by decide

/-- WellFormed's one check: TXTICK has no form with resp 3. -/
theorem test_wellformed_refuses_reserved_resp :
    (Instr.txtick .reserved true).wellFormed = false ∧ (Instr.txtick .stall true).wellFormed = true ∧
    refusalOf (step { State.reset with stim := [.op (.txtick .reserved true)] }) = some (.undecodable .illFormed) := by
  decide

/-! ## The step -/

/-- The first step after reset runs the row's instruction. -/
theorem test_step_runs_the_placed_word :
    (nextOf (step (State.reset.withFetchWord 32 0x20000045))).map (fun t => (t.queue, t.stim)) = some ([0x45], []) ∧
    (nextOf (step (State.reset.withFetchWord 8 0x1B))).map (fun t => (t.rxShift, t.rxPhase, t.trace)) =
      some (.figs, .await, []) ∧
    (nextOf (step (State.reset.withFetchWord 8 0x05))).map (fun t => (t.trace, t.rxBlockPos)) =
      some ([.rxChar 0x53], 1) := by
  decide +kernel

/-- A sample offered on the port waits there for its code word (log entry 6). -/
theorem test_offered_sample :
    (nextOf (step { State.reset with stim := [.offer 5, .code 0x01] })).map (fun t => (t.capSample, t.stim, t.rxBlockPos)) =
      some (some 5, [.code 0x01], 0) ∧
    after (fun t => t.capSample) (.rxSample 0) { State.reset with capSample := some 5 } = some (some 5) := by
  decide +kernel

/-- R62, R63: bytes FF FE of a capture stream are the sample -2. -/
theorem test_byte_stream :
    (nextOf (step { State.reset with stim := [.byte 0xFF] })).map (fun t => (t.capHeld, t.rxBlockPos)) = some (some 0xFF, 0) ∧
    (fetch { State.reset with stim := [.byte 0xFE], capHeld := some 0xFF } matches .run (.sample (-2)) _) = true ∧
    (samplesOfBytes [0x7F, 0xFF, 0x80, 0x00, 0x12] = ([32767, -32768], some 0x12)) ∧
    bytesOfSamples [-2] = [0xFF, 0xFE] := by decide

/-! ## Code words -/

/-- Runs a list of instructions, keeping the state where one does not answer a next state. -/
def runAll (is : List Instr) (s : State) : State :=
  is.foldl (fun s i => (nextOf (exec i s)).getD s) s

/-- The events of the CODE5 rows in order, each on a receiver at the stop bit of its frame. -/
def emittedByRows (shift : Shift) : List Event :=
  (List.range 32).flatMap (fun k =>
    ((nextOf (exec (codeInstr (BitVec.ofNat 5 k)) (stopBitState shift (BitVec.ofNat 5 k)))).map (·.trace)).getD [])

/-- The LTRS column of R86: every row but the two shift codes. -/
theorem test_code_rows_in_letters :
    emittedByRows .ltrs =
    [.rxChar 0x20, .rxChar 0x45, .rxChar 0x0A, .rxChar 0x41, .rxChar 0x20, .rxChar 0x53, .rxChar 0x49,
     .rxChar 0x55, .rxChar 0x0D, .rxChar 0x44, .rxChar 0x52, .rxChar 0x4A, .rxChar 0x4E, .rxChar 0x46,
     .rxChar 0x43, .rxChar 0x4B, .rxChar 0x54, .rxChar 0x5A, .rxChar 0x4C, .rxChar 0x57, .rxChar 0x48,
     .rxChar 0x59, .rxChar 0x50, .rxChar 0x51, .rxChar 0x4F, .rxChar 0x42, .rxChar 0x47, .rxChar 0x4D,
     .rxChar 0x58, .rxChar 0x56] := by decide +kernel

/-- The FIGS column of R86. -/
theorem test_code_rows_in_figures :
    emittedByRows .figs =
    [.rxChar 0x20, .rxChar 0x33, .rxChar 0x0A, .rxChar 0x2D, .rxChar 0x20, .rxChar 0x07, .rxChar 0x38,
     .rxChar 0x37, .rxChar 0x0D, .rxChar 0x24, .rxChar 0x34, .rxChar 0x27, .rxChar 0x2C, .rxChar 0x21,
     .rxChar 0x3A, .rxChar 0x28, .rxChar 0x35, .rxChar 0x22, .rxChar 0x29, .rxChar 0x32, .rxChar 0x23,
     .rxChar 0x36, .rxChar 0x30, .rxChar 0x31, .rxChar 0x39, .rxChar 0x3F, .rxChar 0x26, .rxChar 0x2E,
     .rxChar 0x2F, .rxChar 0x3B] := by decide +kernel

/-- V10. -/
theorem test_decode_sequence_of_v10 :
    let t := decodeRun hw ([0x1B, 0x17, 0x03, 0x1F, 0x03, 0x00, 0x1F, 0x04, 0x1B, 0x1B, 0x00, 0x01, 0x1F, 0x01, 0x08, 0x02]) State.reset
    t.trace = [.rxChar 0x31, .rxChar 0x2D, .rxChar 0x41, .rxChar 0x20, .rxChar 0x20, .rxChar 0x20, .rxChar 0x33,
      .rxChar 0x45, .rxChar 0x0D, .rxChar 0x0A] ∧ t.rxShift = .ltrs := by decide

/-- The shift codes set the mode; DECODE is the same step; off the stop bit, or suppressed, there is no such step. -/
theorem test_decode_steps :
    after (fun t => (t.rxShift, t.trace)) .code1B (stopBitState .ltrs 0x1B) = some (.figs, []) ∧
    after (fun t => (t.rxShift, t.trace)) .code1F (stopBitState .figs 0x1F) = some (.ltrs, []) ∧
    after (fun t => (t.trace, t.rxPhase, t.capSample)) (.decode 0x01) (stopBitState .figs 0x01) =
      some ([.rxChar 0x33], .await, none) ∧
    refusalOf (exec .code01 State.reset) = some (.notEnabled "CODE_0x01") ∧
    refusalOf (exec (.decode 0x01) { stopBitState .ltrs 0x01 with suppress := true }) = some (.notEnabled "DECODE") ∧
    refusalOf (exec .code02 (stopBitState .ltrs 0x01)) = some (.notEnabled "CODE_0x02") := by decide +kernel

/-- R89: 55 mapped characters; V12's codes for '1' and 'E', SP in letters, and 'a' unmapped. -/
theorem test_reverse_table :
    ((List.range 256).filter (fun n => (rev hw.params (BitVec.ofNat 8 n)).isSome)).length = 55 ∧
    rev hw.params 0x31 = some (0x17, .figs) ∧ rev hw.params 0x45 = some (0x01, .ltrs) ∧
    rev hw.params 0x20 = some (0x04, .ltrs) ∧ rev hw.params 0x61 = none := by decide

/-! ## Arithmetic and filters -/

/-- V1, first and third rows. -/
theorem test_filter_vectors_of_v1 :
    filterOutputs ⟨[F64.ofBits 0x3FF0000000000000, F64.ofBits 0x3FE0000000000000], [F64.ofBits 0x3FD0000000000000]⟩ (Filter.reset 2 1)
      [F64.ofBits 0x3FF0000000000000, F64.ofBits 0x0000000000000000, F64.ofBits 0x0000000000000000, F64.ofBits 0x4000000000000000, F64.ofBits 0x0000000000000000] =
      [F64.ofBits 0x3FF0000000000000, F64.ofBits 0x3FE8000000000000, F64.ofBits 0x3FC8000000000000, F64.ofBits 0x4000600000000000, F64.ofBits 0x3FF8300000000000] ∧
    filterOutputs ⟨[F64.ofBits 0x3FF0000000000000], [F64.ofBits 0x3FF0000000000000]⟩ (Filter.reset 1 1) [F64.ofBits 0x3FF0000000000000, F64.ofBits 0x3FF0000000000000, F64.ofBits 0x3FF0000000000000, F64.ofBits 0xC008000000000000] =
      [F64.ofBits 0x3FF0000000000000, F64.ofBits 0x4000000000000000, F64.ofBits 0x4008000000000000, F64.ofBits 0x0000000000000000] := by decide +kernel

/-- V2: rounding after each operation. -/
theorem test_filter_rounding_of_v2 :
    filterOutputs ⟨[F64.ofBits 0x3FB999999999999A, F64.ofBits 0x3FC999999999999A], []⟩ (Filter.reset 2 0) [F64.ofBits 0x3FB999999999999A, F64.ofBits 0x3FC999999999999A] =
      [F64.ofBits 0x3F847AE147AE147C, F64.ofBits 0x3FA47AE147AE147C] := by decide +kernel

/-- V3: the band-pass impulse responses. -/
theorem test_impulse_responses_of_v3 :
    filterOutputs hw.design.bpfMark (Filter.reset 3 2) [F64.ofBits 0x3FF0000000000000, F64.ofBits 0x0000000000000000, F64.ofBits 0x0000000000000000, F64.ofBits 0x0000000000000000] =
      [F64.ofBits 0x3FA28A696702F540, F64.ofBits 0x3FA0CD4BD86E13B1, F64.ofBits 0xBFA5A1BC0B52AF13, F64.ofBits 0xBFB13C2CBF201375] ∧
    filterOutputs hw.design.bpfSpace (Filter.reset 3 2) [F64.ofBits 0x3FF0000000000000, F64.ofBits 0x0000000000000000, F64.ofBits 0x0000000000000000, F64.ofBits 0x0000000000000000] =
      [F64.ofBits 0x3FA2C5F30F0CFD30, F64.ofBits 0x3F8725B568338304, F64.ofBits 0xBFB14723EAA739A2, F64.ofBits 0xBF9F88AE125742B2] := by
  decide +kernel

/-- V4: the cosine and the exponential behind the coefficients. -/
theorem test_transcendentals_of_v4 :
    Trans.cos ((two.mul Config.pi).mul (Config.markHz.div fs)) = F64.ofBits 0x3FDD0E2E2B44DE01 ∧
    Trans.exp (((two.neg.mul Config.pi).mul (F64.real 50)).div fs) = F64.ofBits 0x3FEEC4891BD7AF5A := by decide +kernel

/-- R14: toward zero on both sides. -/
theorem test_trunc16_toward_zero :
    F64.trunc16 (F64.ofBits 0xBFFC000000000000) = -1 ∧ F64.trunc16 (F64.ofBits 0x3FFC000000000000) = 1 ∧
    F64.trunc16 Config.amplitude = 32767 ∧ F64.trunc16 Config.amplitude.neg = -32767 := by decide +kernel

/-- V9. -/
theorem test_mark_and_start_of_v9 :
    (isMark (F64.ofBits 0x40D283B333333333), isStart hw (F64.ofBits 0x40D283B333333333)) = (true, false) ∧
    (isMark F64.zero, isStart hw F64.zero) = (false, false) ∧ isMark F64.zero.neg = false ∧
    isMark (F64.ofBits 0xBD95FD7FE1796495) = false ∧ isStart hw (F64.ofBits 0xC09F400000000000) = false ∧
    isStart hw (F64.ofBits 0xC09F400000000001) = true := by decide +kernel

/-- V6: the first three NRZ values of a full-scale space tone. -/
theorem test_detect_of_v6 :
    let a := detect hw (sampleValue 0) State.reset
    let b := detect hw (sampleValue 32363) a.1
    let c := detect hw (sampleValue 10125) b.1
    a.2 = F64.zero ∧ b.2 = F64.ofBits 0xBFE21D793064CDC0 ∧ c.2 = F64.ofBits 0x403A172D3C5EB6A8 := by decide +kernel

/-- V7: the first space samples, and the first mark samples. -/
theorem test_synth_of_v7 :
    let a := synth hw false State.reset
    let b := synth hw false a.1
    let c := synth hw true (synth hw true State.reset).1
    (a.2, b.2, (synth hw false b.1).2, c.2) = (0, 32363, 10125, 29195) := by decide +kernel

/-! ## The receive path -/

/-- The worked examples of R153 and R154. -/
theorem test_demod_examples :
    demod hw (F64.ofBits 0xC0A3880000000000) State.reset = framingState 265 0 0 ∧
    demod hw (F64.ofBits 0x40CD4C0000000000) (framingState 1 2 0) = framingState 177 3 0b00100 := by decide +kernel

/-- R151's worked example, and a framing error (R156). -/
theorem test_demod_suppressed_and_framing_error :
    demod hw F64.zero { framingState 9 3 1 with suppress := true } = { State.reset with suppress := true } ∧
    demod hw F64.zero (framingState 1 5 0x05) = { State.reset with trace := [.framingError 0x05] } := by decide

/-- RX_SAMPLE of silence counts the block position and lets an expiring guard go. -/
theorem test_rx_sample_of_silence :
    after (fun t => (t.rxBlockPos, t.suppress, t.guardArmed)) (.rxSample 0)
      { State.reset with rxBlockPos := 2047, suppress := true, guardArmed := true, guardCount := 1 } =
      some (0, false, false) ∧
    after (fun t => (t.rxBlockPos, t.suppress, t.guardCount)) (.sample 0)
      { State.reset with suppress := true, guardArmed := true, guardCount := 4096 } = some (1, true, 4095) := by
  decide +kernel

/-- V17: RX_HALT at once after reset. -/
theorem test_rx_halt_of_v17 :
    after (·.rxState) .rxHalt stoppingState = some .halted ∧ after (·.rxState) (.sample 7) stoppingState = some .halted ∧
    refusalOf (exec (.rxSample 7) stoppingState) = some (.notEnabled "RX_SAMPLE") := by decide

/-! ## The transmit path -/

/-- R181's worked example, and R188's. -/
theorem test_tx_wake_and_stop :
    after (fun t => (t.sending, t.suppress, t.txState, t.trace)) .txWake { State.reset with queue := [0x45] } =
      some (true, true, .sending, [.sendingChanged true]) ∧
    after (fun t => (t.txState, t.sending, t.suppress, t.guardArmed, t.guardCount)) (.txStop true) drainingState =
      some (.idle, false, true, true, 4096) := by decide

/-- R182's worked example, and an unmapped character (R185). -/
theorem test_tx_load :
    after (fun t => (t.txPending, t.txShift, t.txFrame, t.queue)) .txLoad { sendingState none with queue := [0x31] } =
      some ([0x17], .figs, some ⟨0x1B, 0, 0⟩, []) ∧
    after (fun t => (t.txFrame, t.queue, t.trace)) .txLoad { sendingState none with queue := [0x7E, 0x45] } =
      some (none, [0x45], [.skipped 0x7E]) := by decide

/-- R186: the last sample of a cell, and the last of a frame. -/
theorem test_tx_sample :
    after (fun t => (t.txFrame, t.trace)) (.txSample .accept) (sendingState (some ⟨0x01, 0, 176⟩)) =
      some (some ⟨0x01, 1, 0⟩, [.sample 0]) ∧
    after (·.txFrame) (.txSample .accept) (sendingState (some ⟨0x01, 6, 176⟩)) = some none := by decide +kernel

/-- P5's STALL: the order of the two events (R249d). -/
theorem test_tx_sample_stall :
    after (fun t => (t.txState, t.playCause, t.trace, t.guardCount)) (.txSample .stall) (sendingState (some ⟨0x01, 2, 9⟩)) =
      some (.fault, 3, [.error 3, .sendingChanged false], 4096) ∧
    after (·.txFrame) (.txtick .busy true) (sendingState (some ⟨0x01, 0, 20⟩)) = some (some ⟨0x01, 0, 20⟩) := by decide

/-- V21 and V17: TX_RESUME whatever is drained, TX_HALT without an event. -/
theorem test_tx_resume_and_halt :
    after (fun t => (t.txState, t.trace)) (.txtick .accept true) { drainingState with queue := [0x45] } =
      some (.sending, []) ∧
    after (·.txState) .txResume { drainingState with queue := [0x45] } = some .sending ∧
    after (fun t => (t.txState, t.trace)) .txHalt stoppingState = some (.halted, []) := by decide

/-! ## HOST and the platform -/

/-- R180's worked example, and V19 on a queue of two. -/
theorem test_host_enq :
    after (·.queue) (.hostEnq [0x53, 0x4F, 0x53]) State.reset = some [0x53, 0x4F, 0x53] ∧
    (hostEnqStep ⟨{ hwParams with queueDepth := some 2 }, hwDesign⟩ [0x41, 0x42, 0x43] State.reset).hostAccept = false ∧
    (hostEnqStep ⟨{ hwParams with queueDepth := some 2 }, hwDesign⟩ [0x41, 0x42] State.reset).queue = [0x41, 0x42] := by
  decide

/-- V16, and a RESET in mid-operation (R270). -/
theorem test_reset :
    after (fun t => (t.trace, t.rxState, t.txState, t.capCause, t.playCause)) (.opReset false false) drainingState =
      some ([.error 1, .error 2], .fault, .fault, 1, 2) ∧
    after id (.reset true true) { sendingState (some ⟨0x01, 3, 5⟩) with queue := [0x45], shutdownReq := true } =
      some State.reset := by decide +kernel

/-- V16: a faulted transmit path still takes text, and takes no step. -/
theorem test_push_into_a_faulted_path :
    (runAll [.reset true false, .push 0x45, .txtick .accept true] State.reset).queue = [0x45] ∧
    (runAll [.reset true false, .push 0x45, .txtick .accept true] State.reset).trace = [.error 2] ∧
    after (·.shutdownReq) .shutdown State.reset = some true ∧ after (·.shutdownReq) .opShutdown State.reset = some true := by
  decide +kernel

/-! ## A state for the hypotheses of every statement -/

/-- The hypotheses of StepRunsTheDecodedStimulus, clause by clause. -/
theorem witness_StepRunsTheDecodedStimulus :
    (({ State.reset with stim := [.word 0x40000000] } : State).stim = .word 0x40000000 :: [] ∧
      wordInstr 0x40000000 = some .shutdown) ∧
    (({ State.reset with stim := [.code 0x1F] } : State).stim = .code 0x1F :: [] ∧
      (decodeCode 0x1F).toOption = some .code1F) ∧
    (({ State.reset with stim := [.op .txWake] } : State).stim = .op .txWake :: [] ∧ Instr.txWake.wellFormed = true) ∧
    ({ State.reset with stim := [.offer (-1)] } : State).stim = .offer (-1) :: [] ∧ State.reset.stim = [] := by decide

theorem witness_ByteStreamFormsBigEndianSamples :
    ({ State.reset with stim := [.byte 0x80, .byte 0x00] } : State).stim = .byte 0x80 :: .byte 0x00 :: [] ∧
    State.reset.capHeld = none := by decide

/-- The least and the greatest word on each side of the clauses. -/
theorem witness_ReservedStimulusWordsAreRefused :
    ([0x50000000, 0xFFFFFFFF, 0x00000004, 0x10010000, 0x20000100, 0x30000008, 0x30000003, 0x40000001] :
      List (BitVec 32)).all (fun w => decide (reservedWord w)) = true ∧
    ([0x00000003, 0x1000FFFF, 0x200000FF, 0x30000006, 0x40000000] : List (BitVec 32)).all
      (fun w => decide (¬ reservedWord w)) = true := by decide

theorem witness_DecodeOfEncodeIsTheInstruction :
    (Instr.txtick .stall true).wellFormed = true ∧ (Instr.sample (-32768)).wellFormed = true ∧
    (Instr.hostEnq []).wellFormed = true := by decide

/-- A line's word, and the least reserved one. -/
theorem witness_StimulusWordsHaveTheirFields :
    ({ State.reset with stim := [.word 0x30000006] } : State).stim = .word 0x30000006 :: [] ∧
    lineNumber? (.txtick .stall true) = some (0x30000006 : BitVec 32).toNat ∧ wordInstr 0x50000000 = none := by decide

theorem witness_ResetKeepsTheScheduleAndThePorts :
    (nextOf (exec (.reset false true) State.reset)).isSome = true ∧
    (nextOf (exec (.opReset true false) State.reset)).isSome = true := by decide +kernel

theorem witness_EncodeOfDecodeIsTheWord : wordInstr 0x30000006 = some (.txtick .stall true) := by decide

theorem witness_EachAgentHasAtMostOneOperation :
    txEnabled .busy false { State.reset with queue := [0] } .wake = true ∧
    txEnabled .accept true drainingState .stop = true := by decide

/-- Each clause of LinesPerformTheEnabledOperation. -/
theorem witness_LinesPerformTheEnabledOperation :
    txWakeEnabled { State.reset with queue := [0x45] } = true ∧ txLoadEnabled (sendingState none) = true ∧
    txSampleEnabled .stall (sendingState (some ⟨0, 6, 176⟩)) = true ∧
    txResumeEnabled { drainingState with queue := [0x45] } = true ∧ txStopEnabled true drainingState = true ∧
    txHaltEnabled { drainingState with shutdownReq := true } = true ∧
    (∀ op ∈ txOps, txEnabled .busy true (sendingState (some ⟨0, 0, 0⟩)) op = false) ∧
    rxSampleEnabled { stoppingState with rxBlockPos := 1 } = true ∧ rxHaltEnabled stoppingState = true ∧
    (rxSampleEnabled { State.reset with rxState := .fault } = false ∧
      rxHaltEnabled { State.reset with rxState := .fault } = false) := by decide

/-- Each clause of DisabledOperationsAreNoStep. -/
theorem witness_DisabledOperationsAreNoStep :
    rxSampleEnabled stoppingState = false ∧ rxHaltEnabled { stoppingState with rxBlockPos := 2047 } = false ∧
    txWakeEnabled State.reset = false ∧ txLoadEnabled State.reset = false ∧
    txSampleEnabled .reserved (sendingState (some ⟨0, 0, 0⟩)) = false ∧ txResumeEnabled drainingState = false ∧
    txStopEnabled false drainingState = false ∧ txHaltEnabled State.reset = false ∧
    Instr.code01.codeWord? = some 0x01 ∧ State.reset.capSample = none ∧
    ((stopBitState .ltrs 0x01).capSample = some 0 ∧ (stopBitState .ltrs 0x01).rxWord ≠ 0x02) := by
  decide

/-- The three outcomes of DECODE, at the first and the last code word. -/
theorem witness_DecodeSetsShiftOrEmitsOneCharacter :
    (Instr.code00.codeWord? = some 0x00 ∧ Instr.code1B.codeWord? = some 0x1B ∧ Instr.code1F.codeWord? = some 0x1F) ∧
    ([0x00, 0x1B, 0x1F] : List Code).all (fun code =>
      let s := stopBitState .ltrs code
      decide (s.capSample = some 0 ∧ s.rxState = .run ∧ ¬ (s.shutdownReq = true ∧ s.rxBlockPos = 0) ∧ (coordTick s).suppress = false ∧
        s.rxPhase = .framing ∧ s.rxTimer = 1 ∧ s.rxBitidx = 5 ∧ s.rxWord = code ∧
        isMark (detect hw (sampleValue 0) (coordTick s)).2 = true)) = true := by decide +kernel

theorem witness_RoundTripLawsOfTheCodebook :
    rev hwParams 0x07 = some (0x05, .figs) ∧ rev hwParams 0x5A = some (0x11, .ltrs) := by decide

theorem witness_TextSentAsCodesIsReceivedAsText :
    ∀ ch ∈ ([0x31, 0x41, 0x20] : List Char8), rev hw.params ch ≠ none := by decide

/-- A run of letters, and a run of figures. -/
theorem witness_ShiftCodesAreMinimal :
    ([0x53, 0x4F, 0x53] : List Char8) ≠ [] ∧
    (∀ ch ∈ ([0x53, 0x4F, 0x53] : List Char8), (rev hwParams ch).map (·.2) = some .ltrs) ∧
    (∀ ch ∈ ([0x31, 0x32] : List Char8), (rev hwParams ch).map (·.2) = some .figs) ∧
    rev hw.params 0x41 = some (0x03, .ltrs) ∧ rev hw.params 0x5A = some (0x11, .ltrs) ∧
    rev hw.params 0x30 = some (0x16, .figs) ∧ rev hw.params 0x39 = some (0x18, .figs) := by decide

/-- The largest finite value and the least one beside it: a finite sum, and one beyond the range. -/
theorem witness_AdditionRoundsToNearestEven :
    let m := F64.ofBits 0x7FEFFFFFFFFFFFFF
    let h := F64.ofBits 0x7C90000000000000
    let l := F64.ofBits 0x7C8FFFFFFFFFFFFF
    ((F64.units? m).bind (fun x => (F64.units? l).map (fun y => decide (|x + y| < overflowBound)))) = some true ∧
    ((F64.units? m).bind (fun x => (F64.units? h).map (fun y => decide (overflowBound ≤ |x + y|)))) = some true := by
  decide +kernel

theorem witness_MultiplicationRoundsToNearestEven :
    let m := F64.ofBits 0x7FEFFFFFFFFFFFFF
    let o := F64.ofBits 0x3FF0000000000000
    let t := F64.ofBits 0x3FF0000000000001
    ((F64.units? m).bind (fun x => (F64.units? o).map (fun y => decide (|x * y| < overflowBound * 2 ^ 1074)))) = some true ∧
    ((F64.units? m).bind (fun x => (F64.units? t).map (fun y => decide (overflowBound * 2 ^ 1074 ≤ |x * y|)))) =
      some true := by decide +kernel

theorem witness_DivisionRoundsToNearestEven :
    let m := F64.ofBits 0x7FEFFFFFFFFFFFFF
    let o := F64.ofBits 0x3FF0000000000000
    let h := F64.ofBits 0x3FE0000000000000
    ((F64.units? m).bind (fun x => (F64.units? o).map (fun y => decide (y ≠ 0 ∧ |x * 2 ^ 1074| < overflowBound * |y|)))) =
      some true ∧
    ((F64.units? m).bind (fun x => (F64.units? h).map (fun y => decide (y ≠ 0 ∧ overflowBound * |y| ≤ |x * 2 ^ 1074|)))) =
      some true := by decide +kernel

/-- The added clauses: an exact zero sum, a zero divisor, and a finite value beside an infinity. -/
theorem witness_signs_and_zero_divisors :
    (F64.units? F64.zero = some 0 ∧ F64.units? F64.zero.neg = some 0) ∧
    (F64.units? Config.amplitude).isSome = true := by decide

/-- The bound itself, on both sides. -/
theorem witness_TruncationIsTowardZero :
    (F64.units? Config.amplitude).map (fun u => decide (|u| ≤ 32767 * 2 ^ 1074)) = some true ∧
    (F64.units? Config.amplitude.neg).map (fun u => decide (|u| ≤ 32767 * 2 ^ 1074)) = some true := by decide +kernel

theorem witness_FilterIsItsDifferenceEquation : 0 < [F64.zero].length := by decide

/-- The two ways a sample is taken at the edge of a block. -/
theorem witness_RxSampleTicksDetectsAndDemodulates :
    (State.reset.rxState = .run ∧ ¬ (State.reset.shutdownReq = true ∧ State.reset.rxBlockPos = 0)) ∧
    (stoppingState.rxState = .run ∧
      ¬ (stoppingState.shutdownReq = true ∧ ({ stoppingState with rxBlockPos := 1 } : State).rxBlockPos = 0)) := by decide

/-- With no guard, and with a guard of 2. -/
theorem witness_SuppressedSampleEmitsNothing :
    let s := { State.reset with suppress := true }
    let g := { s with guardArmed := true, guardCount := 2 }
    (s.rxState = .run ∧ ¬ (s.shutdownReq = true ∧ s.rxBlockPos = 0) ∧ s.suppress = true ∧
      ¬ (s.guardArmed = true ∧ s.guardCount ≤ 1)) ∧
    (g.rxState = .run ∧ ¬ (g.shutdownReq = true ∧ g.rxBlockPos = 0) ∧ g.suppress = true ∧
      ¬ (g.guardArmed = true ∧ g.guardCount ≤ 1)) := by decide

theorem witness_AwaitStartsAFrameOnStart : State.reset.suppress = false ∧ State.reset.rxPhase = .await := by decide

/-- Each clause of FramingSamplesBitsAtMidCell, at the edges of the timer and the index. -/
theorem witness_FramingSamplesBitsAtMidCell :
    ((framingState 2 0 0).suppress = false ∧ (framingState 2 0 0).rxPhase = .framing ∧ 1 ≤ (framingState 2 0 0).rxTimer) ∧
    (framingState 1 4 0).rxTimer = 1 ∧ (framingState 1 4 0).rxBitidx < 5 ∧ 5 ≤ (framingState 1 5 0).rxBitidx ∧
    isMark Config.pi = true ∧ isMark F64.zero = false := by decide +kernel

theorem witness_FrameIsDecidedAtTheSamplingInstants :
    (framingState 265 0 0).suppress = false ∧ (framingState 265 0 0).rxPhase = .framing ∧
    (framingState 265 0 0).rxTimer = 265 ∧ (framingState 265 0 0).rxBitidx = 0 ∧ (framingState 265 0 0).rxWord = 0 := by
  decide

theorem witness_RxHaltStopsTheCapturePath :
    stoppingState.rxState = .run ∧ stoppingState.shutdownReq = true ∧ stoppingState.rxBlockPos = 0 := by decide

theorem witness_TxWakeStartsSending :
    let s := { State.reset with queue := [0x45] }
    s.txState = .idle ∧ s.shutdownReq = false ∧ s.queue ≠ [] := by decide

/-- Each clause of TxLoadFramesTheNextCode. -/
theorem witness_TxLoadFramesTheNextCode :
    ((sendingState none).txState = .sending ∧ (sendingState none).txFrame = none ∧ (sendingState none).shutdownReq = false) ∧
    ({ sendingState none with txPending := [0x17] } : State).txPending = 0x17 :: [] ∧
    ((sendingState none).txPending = [] ∧ (sendingState none).queue = []) ∧
    ({ sendingState none with queue := [0x31] } : State).queue = 0x31 :: [] ∧
    rev hw.params 0x7E = none ∧ rev hw.params 0x41 = some (0x03, (sendingState none).txShift) ∧
    (rev hw.params 0x31 = some (0x17, .figs) ∧ Shift.figs ≠ (sendingState none).txShift) := by decide

/-- The last sample of a cell, of a frame, and one in mid-cell. -/
theorem witness_TxSampleAcceptPutsOutOneSample :
    (sendingState (some ⟨0, 0, 176⟩)).txState = .sending ∧ (sendingState (some ⟨0, 0, 176⟩)).txFrame = some ⟨0, 0, 176⟩ ∧
    (sendingState (some ⟨0, 6, 176⟩)).txFrame = some ⟨0, 6, 176⟩ ∧
    (sendingState (some ⟨0, 0, 175⟩)).txFrame = some ⟨0, 0, 175⟩ := by decide

theorem witness_TxSampleStallFaultsThePath :
    let s := sendingState (some ⟨0x1F, 6, 176⟩)
    (s.txState = .sending ∧ s.txFrame = some ⟨0x1F, 6, 176⟩ ∧ s.sending = true) ∧
    ({ s with sending := false } : State).sending = false := by decide

theorem witness_BusyAnswerHoldsTheSample :
    (sendingState (some ⟨0, 0, 0⟩)).txState = .sending ∧ (sendingState (some ⟨0, 0, 0⟩)).txFrame = some ⟨0, 0, 0⟩ := by decide

theorem witness_TxResumeContinuesTheTransmission :
    let s := { drainingState with queue := [0] }
    s.txState = .draining ∧ s.shutdownReq = false ∧ s.queue ≠ [] := by decide

theorem witness_TxStopArmsTheGuard :
    drainingState.txState = .draining ∧ drainingState.shutdownReq = false ∧ drainingState.queue = [] := by decide

/-- The three frame boundaries, sending and not. -/
theorem witness_TxHaltLeavesService :
    (stoppingState.shutdownReq = true ∧ stoppingState.txState = .idle ∧ stoppingState.sending = false) ∧
    (drainingState.txState = .draining ∧ drainingState.sending = true) ∧
    (sendingState none).txState = .sending ∧ (sendingState none).txFrame = none := by decide

theorem witness_FrameIsExactly1239Samples :
    (sendingState (some ⟨0x1B, 0, 0⟩)).txState = .sending ∧
    (sendingState (some ⟨0x1B, 0, 0⟩)).txFrame = some ⟨0x1B, 0, 0⟩ := by decide

theorem witness_EveryTransmissionEnds :
    let s := { State.reset with queue := [0x31, 0x7E, 0x41] }
    sound s ∧ s.txState = .idle ∧ s.shutdownReq = false ∧ s.queue ≠ [] := by decide

/-- Zero, and the largest phase below 2 pi. -/
theorem witness_SynthesizedSampleIsInRange :
    phaseInRange F64.zero ∧ phaseInRange (F64.ofBits 0x401921FB54442D17) := by decide +kernel

/-- A guard of 1 and a guard of 4096. -/
theorem witness_GuardExpiresAfterItsCount :
    let s := { State.reset with suppress := true, guardArmed := true, guardCount := 1 }
    let g := { s with guardCount := 4096 }
    (s.rxState = .run ∧ s.shutdownReq = false ∧ s.suppress = true ∧ s.guardArmed = true ∧ 1 ≤ s.guardCount) ∧
    (g.rxState = .run ∧ g.shutdownReq = false ∧ g.suppress = true ∧ g.guardArmed = true ∧ 1 ≤ g.guardCount) ∧
    ([] : List Sample).length < s.guardCount ∧ s.guardCount ≤ ([0] : List Sample).length := by decide

/-- V15: a TX_WAKE with a guard pending. -/
theorem witness_NoStaleGuardAfterWake :
    (nextOf (exec .txWake
      { State.reset with queue := [0x54], suppress := true, guardArmed := true, guardCount := 3996 })).isSome = true := by
  decide

theorem witness_ImmediatePolicyClearsAtOnce : ({ hwParams with guardSamples := 0 } : Config.Params).guardSamples = 0 := by
  decide

/-- Both clauses: a wake that sets the flag, and an expiry that clears it. -/
theorem witness_SuppressChangesOnlyByWakeAndExpiry :
    (after (·.suppress) .txWake { State.reset with queue := [0x54] } = some true ∧ performsReset .txWake = false) ∧
    (after (·.suppress) (.sample 0) { State.reset with suppress := true, guardArmed := true, guardCount := 1 } = some false ∧
      performsReset (.sample 0) = false) := by decide +kernel

theorem witness_NoCharacterWhileSending :
    sound (sendingState (some ⟨0x01, 0, 0⟩)) ∧ (sendingState (some ⟨0x01, 0, 0⟩)).sending = true ∧
    (nextOf (exec (.sample 0) (sendingState (some ⟨0x01, 0, 0⟩)))).isSome = true ∧
    performsReset (.sample 0) = false := by decide

/-- A path in FAULT and one in HALTED, with an instruction that answers a next state. -/
theorem witness_FaultAndHaltLastUntilReset :
    let s := { State.reset with rxState := .fault, txState := .halted }
    let u := { State.reset with rxState := .halted, txState := .fault }
    (nextOf (exec (.txtick .accept true) s)).isSome = true ∧ (nextOf (exec (.sample 0) u)).isSome = true ∧
    performsReset (.sample 0) = false := by decide

/-- The transmit path in FAULT after a RESET without a playback device. -/
def noPlaybackState : State := { State.reset with txState := .fault, playCause := 2 }

/-- A STALL, which writes a cause, and a SAMPLE with a cause held. -/
theorem witness_CauseCodesLastUntilReset :
    sound (sendingState (some ⟨0, 0, 0⟩)) ∧
    after (·.playCause) (.txtick .stall false) (sendingState (some ⟨0, 0, 0⟩)) = some 3 := by decide

theorem witness_CauseCodesLastUntilReset_held :
    sound noPlaybackState ∧ after (·.playCause) (.sample 0) noPlaybackState = some 2 := by decide +kernel

theorem witness_ShutdownRequestLastsUntilReset :
    after (·.shutdownReq) (.push 0) stoppingState = some true ∧ after (·.shutdownReq) .shutdown State.reset = some true := by
  decide

/-- A text that just fits, and one that just does not. -/
theorem witness_HostEnqTakesAllOrNothing :
    ({ hwParams with queueDepth := some 2 } : Config.Params).queueDepth = some 2 ∧
    State.reset.queue.length + ([0x41, 0x42] : List Char8).length ≤ 2 ∧
    2 < State.reset.queue.length + ([0x41, 0x42, 0x43] : List Char8).length := by decide

theorem witness_AgentsKeepToTheirFields :
    ((nextOf (exec (.rxSample 0) State.reset)).isSome = true ∧ performsReceive (.rxSample 0) = true) ∧
    ((nextOf (exec .txLoad { sendingState none with queue := [0x45] })).isSome = true ∧ performsTransmit .txLoad = true) := by
  decide

theorem witness_PhaseChangesOnlyWithASample :
    (nextOf (exec (.txSample .accept) (sendingState (some ⟨0, 0, 0⟩)))).isSome = true ∧
    performsReset (.txSample .accept) = false := by decide

theorem witness_TraceOnlyGrows :
    (nextOf (exec (.txSample .stall) (sendingState (some ⟨0, 0, 0⟩)))).isSome = true ∧
    performsReset (.txSample .stall) = false := by decide

theorem witness_EveryStepKeepsTheInvariants :
    sound { State.reset with queue := [0x45], stim := [.op .txWake] } ∧
    (nextOf (step { State.reset with queue := [0x45], stim := [.op .txWake] })).isSome = true := by decide

theorem witness_EveryStepKeepsThePhaseInRange :
    phaseInRange State.reset.phi ∧
    (nextOf (step { sendingState (some ⟨0, 0, 0⟩) with stim := [.op (.txSample .accept)] })).isSome = true := by
  decide +kernel

end Sys2Proof.Tests
end

section
/-! PROOFS. Rounding to nearest even (spec/00_scope.md R12). A finite magnitude is named by its field, exponent and
fraction as one number; the fields stand in the order of the magnitudes, so that a rounding is decided by comparing
the exact value with the midpoints between fields. -/

namespace Sys2Proof.F64

/-! ## Signs -/

theorem signed_zero (s : Bool) : signed s 0 = 0 := by cases s <;> rfl

theorem signed_mul (s t : Bool) (m n : Nat) : signed s m * signed t n = signed (s ^^ t) (m * n) := by
  cases s <;> cases t <;> simp [signed]

theorem abs_signed (s : Bool) (m : Nat) : |signed s m| = m := by
  rw [Int.abs_eq_natAbs, natAbs_signed]

theorem signed_decide_natAbs (x : Int) : signed (decide (x < 0)) x.natAbs = x := by
  simp only [signed, decide_eq_true_eq]
  omega

theorem decide_signed_lt_zero (s : Bool) (m : Nat) (hm : 0 < m) : decide (signed s m < 0) = s := by
  cases s <;> simp [signed, hm]

theorem abs_signed_sub_same (s : Bool) (m n : Nat) : |signed s m - signed s n| = |(m : Int) - n| := by
  cases s <;> simp only [signed, Int.abs_eq_natAbs, if_true, Bool.false_eq_true, if_false]
  omega

theorem abs_signed_sub_opposite (s : Bool) (m n : Nat) : |signed s m - signed (!s) n| = (m : Int) + n := by
  cases s <;> simp only [signed, Int.abs_eq_natAbs, Bool.not_true, Bool.not_false, if_true, Bool.false_eq_true, if_false] <;>
    omega

/-! ## The magnitude of a field -/

/-- The magnitude, in units of 2^-1074, whose field is `k`; the fields go on past the largest finite one. -/
def fieldMag (k : Nat) : Nat := (k - (k / 2 ^ 52 - 1) * 2 ^ 52) * 2 ^ (k / 2 ^ 52 - 1)

/-- A significand of 53 bits at exponent `j`, or of fewer at exponent 0. `m = 2 ^ 53` is the carry of R12's rounding,
which moves into the exponent by itself. -/
theorem fieldMag_scaled (j m : Nat) (hj : j = 0 ∨ 2 ^ 52 ≤ m) (hm : m ≤ 2 ^ 53) :
    fieldMag (j * 2 ^ 52 + m) = m * 2 ^ j := by
  unfold fieldMag
  rcases hm.lt_or_eq with hlt | rfl
  · have hexp : (j * 2 ^ 52 + m) / 2 ^ 52 - 1 = j := by omega
    rw [hexp, Nat.add_sub_cancel_left]
  · have hexp : (j * 2 ^ 52 + 2 ^ 53) / 2 ^ 52 - 1 = j + 1 := by omega
    have hsig : j * 2 ^ 52 + 2 ^ 53 - (j + 1) * 2 ^ 52 = 2 ^ 52 := by omega
    rw [hexp, hsig, pow_succ' 2 j, ← mul_assoc, ← pow_succ]

@[simp] theorem fieldMag_zero : fieldMag 0 = 0 := by simpa using fieldMag_scaled 0 0 (.inl rfl) (by norm_num)

/-- Every field is a significand below 2^53 at an exponent. -/
theorem exists_scaled (k : Nat) : ∃ j m, k = j * 2 ^ 52 + m ∧ (j = 0 ∨ 2 ^ 52 ≤ m) ∧ m < 2 ^ 53 :=
  ⟨k / 2 ^ 52 - 1, k - (k / 2 ^ 52 - 1) * 2 ^ 52, by omega, by omega, by omega⟩

theorem fieldMag_strictMono : StrictMono fieldMag := by
  refine strictMono_nat_of_lt_succ fun k => ?_
  obtain ⟨j, m, rfl, hj, hm⟩ := exists_scaled k
  rw [add_assoc, fieldMag_scaled j m hj hm.le, fieldMag_scaled j (m + 1) (by omega) (by omega)]
  exact Nat.mul_lt_mul_of_pos_right m.lt_succ_self (by positivity)

theorem magOf_eq_fieldMag (e : Fin 2047) (f : BitVec 52) : magOf e f = fieldMag (e.val * 2 ^ 52 + f.toNat) := by
  have hf := f.isLt
  unfold magOf
  split
  · rename_i he
    rw [he, fieldMag_scaled 0 _ (.inl rfl) (by omega), pow_zero, mul_one]
  · have hfield : e.val * 2 ^ 52 + f.toNat = (e.val - 1) * 2 ^ 52 + (2 ^ 52 + f.toNat) := by omega
    rw [hfield, fieldMag_scaled _ _ (.inr (by omega)) (by omega)]

/-! ## The value of a field -/

/-- Fields from here on are beyond the largest finite value. -/
def fieldLimit : Nat := 2047 * 2 ^ 52

theorem ofField_of_lt (s : Bool) (k : Nat) (h : k < fieldLimit) :
    ofField s k = .num s ⟨k / 2 ^ 52, by unfold fieldLimit at h; omega⟩ (BitVec.ofNat 52 k) := dif_pos h

theorem ofField_of_le (s : Bool) (k : Nat) (h : fieldLimit ≤ k) : ofField s k = .inf s := dif_neg (Nat.not_lt.2 h)

theorem units?_ofField (s : Bool) (k : Nat) (h : k < fieldLimit) :
    units? (ofField s k) = some (signed s (fieldMag k)) := by
  have hfield : k / 2 ^ 52 * 2 ^ 52 + k % 2 ^ 52 = k := Nat.div_add_mod' k _
  rw [ofField_of_lt s k h, units?, magOf_eq_fieldMag, BitVec.toNat_ofNat, hfield]

theorem signBit_ofField (s : Bool) (k : Nat) : Machine.signBit (ofField s k) = s := by
  unfold ofField
  split <;> rfl

theorem lastBitZero_ofField (s : Bool) (k : Nat) (h : k < fieldLimit) (heven : k % 2 = 0) :
    Machine.lastBitZero (ofField s k) = true := by
  have hbit : (BitVec.ofNat 52 k).getLsbD 0 = false := by
    rw [BitVec.getLsbD_ofNat, Nat.testBit_zero]
    simp [heven]
  rw [ofField_of_lt s k h, Machine.lastBitZero, hbit, Bool.not_false]

/-- Every finite value is the magnitude of a field with a given sign, or one other than zero with the opposite sign. -/
theorem exists_field (c : Bool) (v : F64) (w : Int) (h : units? v = some w) :
    ∃ k, w = signed c (fieldMag k) ∨ (0 < k ∧ w = signed (!c) (fieldMag k)) := by
  cases v with
  | nan => cases h
  | inf s => cases h
  | num s e f =>
    cases h
    refine ⟨e.val * 2 ^ 52 + f.toNat, ?_⟩
    rw [magOf_eq_fieldMag]
    rcases Nat.eq_zero_or_pos (e.val * 2 ^ 52 + f.toNat) with hk | hk
    · exact .inl (by rw [hk, fieldMag_zero, signed_zero, signed_zero])
    · rcases Bool.eq_or_eq_not s c with rfl | rfl
      · exact .inl rfl
      · exact .inr ⟨hk, rfl⟩

/-! ## Rounding by midpoints -/

/-- The field `r` is a rounding of `p / q` units to nearest, ties to even: `p / q` is on the side of `r` of every
midpoint between `r` and another field, or on the midpoint where `r` is even. -/
def RoundsTo (p q r : Nat) : Prop :=
  (∀ k < r, (fieldMag k + fieldMag r) * q ≤ 2 * p ∧ (2 * p ≤ (fieldMag k + fieldMag r) * q → r % 2 = 0)) ∧
  (∀ k > r, 2 * p ≤ (fieldMag k + fieldMag r) * q ∧ ((fieldMag k + fieldMag r) * q ≤ 2 * p → r % 2 = 0))

/-- Two exact values on the same side of every multiple of half a unit round alike. -/
theorem RoundsTo.congr {p q p' q' r : Nat} (h : RoundsTo p q r) (hle : ∀ m, m * q ≤ 2 * p ↔ m * q' ≤ 2 * p')
    (hge : ∀ m, 2 * p ≤ m * q ↔ 2 * p' ≤ m * q') : RoundsTo p' q' r := by
  simpa only [RoundsTo, hle, hge] using h

/-- An exact value at or above a field, and not above the midpoint to the next, rounds down. -/
theorem roundsTo_below {p q k : Nat} (hlo : fieldMag k * q ≤ p)
    (hmid : 2 * p ≤ (fieldMag (k + 1) + fieldMag k) * q)
    (htie : (fieldMag (k + 1) + fieldMag k) * q ≤ 2 * p → k % 2 = 0) (hq : 0 < q) : RoundsTo p q k := by
  constructor
  · intro i hi
    have hlt : fieldMag i * q < fieldMag k * q := Nat.mul_lt_mul_of_pos_right (fieldMag_strictMono hi) hq
    rw [add_mul]
    omega
  · intro i hi
    have hmono : (fieldMag (k + 1) + fieldMag k) * q ≤ (fieldMag i + fieldMag k) * q :=
      Nat.mul_le_mul_right q (Nat.add_le_add_right (fieldMag_strictMono.monotone hi) _)
    exact ⟨hmid.trans hmono, fun h => htie (hmono.trans h)⟩

/-- An exact value at or below a field, and not below the midpoint to the one before, rounds up. -/
theorem roundsTo_above {p q k : Nat} (hhi : p < fieldMag (k + 1) * q)
    (hmid : (fieldMag k + fieldMag (k + 1)) * q ≤ 2 * p)
    (htie : 2 * p ≤ (fieldMag k + fieldMag (k + 1)) * q → (k + 1) % 2 = 0) (hq : 0 < q) : RoundsTo p q (k + 1) := by
  constructor
  · intro i hi
    have hmono : (fieldMag i + fieldMag (k + 1)) * q ≤ (fieldMag k + fieldMag (k + 1)) * q :=
      Nat.mul_le_mul_right q (Nat.add_le_add_right (fieldMag_strictMono.monotone (Nat.le_of_lt_succ hi)) _)
    exact ⟨hmono.trans hmid, fun h => htie (h.trans hmono)⟩
  · intro i hi
    have hlt : fieldMag (k + 1) * q < fieldMag i * q := Nat.mul_lt_mul_of_pos_right (fieldMag_strictMono hi) hq
    rw [add_mul]
    omega

/-- The bits `roundMag` keeps are a full significand, or the shift is the least there is. -/
theorem kept_bounds (n d : Nat) :
    (max (Nat.log2 n - 52) d - d = 0 ∨ 2 ^ 52 ≤ n / 2 ^ max (Nat.log2 n - 52) d) ∧
      n / 2 ^ max (Nat.log2 n - 52) d < 2 ^ 53 := by
  constructor
  · rcases le_or_gt (Nat.log2 n - 52) d with h | h
    · exact .inl (by omega)
    · have hn : n ≠ 0 := by rintro rfl; simp at h
      right
      rw [max_eq_left h.le, Nat.le_div_iff_mul_le (by positivity), ← pow_add, Nat.add_sub_cancel' (by omega)]
      exact Nat.log2_self_le hn
  · rw [Nat.div_lt_iff_lt_mul (by positivity), ← pow_add]
    exact Nat.lt_log2_self.trans_le (Nat.pow_le_pow_right (by norm_num) (by omega))

/-- `roundMag` rounds `n * 2^-d` units to nearest, ties to even. -/
theorem roundsTo_roundMag (n d : Nat) : RoundsTo n (2 ^ d) (roundMag n d) := by
  obtain ⟨hj, hkept⟩ := kept_bounds n d
  unfold roundMag
  dsimp only
  rw [Nat.shiftRight_eq_div_pow]
  set shift := max (Nat.log2 n - 52) d
  set j := shift - d with hjdef
  set kept := n / 2 ^ shift
  have hscale (m : Nat) (hm : j = 0 ∨ 2 ^ 52 ≤ m) (hm' : m ≤ 2 ^ 53) :
      fieldMag (j * 2 ^ 52 + m) * 2 ^ d = m * 2 ^ shift := by
    rw [fieldMag_scaled j m hm hm', mul_assoc, ← pow_add, hjdef, Nat.sub_add_cancel (le_max_right _ _)]
  have hlow := hscale kept hj hkept.le
  have hhigh := hscale (kept + 1) (by omega) (by omega)
  have hn : kept * 2 ^ shift + n % 2 ^ shift = n := Nat.div_add_mod' n _
  have hdrop : n % 2 ^ shift < 2 ^ shift := Nat.mod_lt _ (by positivity)
  have hparity : (j * 2 ^ 52 + kept) % 2 = kept % 2 := by omega
  have hq : 0 < 2 ^ d := by positivity
  rw [add_mul, one_mul, ← add_assoc] at hhigh
  split
  · -- the dropped bits are above half, or half beside an odd significand: the next field
    rename_i hup
    simp only [Bool.or_eq_true, Bool.and_eq_true, decide_eq_true_eq, beq_iff_eq] at hup
    rw [← add_assoc]
    refine roundsTo_above (by omega) ?_ ?_ hq <;> rw [add_mul] <;> omega
  · -- the dropped bits are below half, or half beside an even significand: the field kept
    rename_i hup
    simp only [Bool.or_eq_true, Bool.and_eq_true, decide_eq_true_eq, beq_iff_eq] at hup
    rw [add_zero]
    refine roundsTo_below (by omega) ?_ ?_ hq <;> rw [add_mul] <;> omega

/-- A value at most that of a field does not round past the field. -/
theorem RoundsTo.le_of_le {p q r k : Nat} (h : RoundsTo p q r) (hq : 0 < q) (hk : p ≤ fieldMag k * q) : r ≤ k := by
  by_contra hlt
  have hmid := (h.1 k (by omega)).1
  have hmono : fieldMag k * q < fieldMag r * q := Nat.mul_lt_mul_of_pos_right (fieldMag_strictMono (by omega)) hq
  rw [add_mul] at hmid
  omega

/-- A rounding is at most twice the exact value: zero is a candidate too. -/
theorem RoundsTo.le_double {p q r : Nat} (h : RoundsTo p q r) : fieldMag r * q ≤ 2 * p := by
  rcases Nat.eq_zero_or_pos r with rfl | hr
  · simp
  · simpa using (h.1 0 hr).1

/-- Every other field is further off, or as far off where `r` is even. -/
theorem RoundsTo.closest {p q r k : Nat} (h : RoundsTo p q r) (hq : 0 < q) (hk : k ≠ r) :
    |(p : Int) - (fieldMag r * q : Nat)| < |(p : Int) - (fieldMag k * q : Nat)| ∨
      (|(p : Int) - (fieldMag r * q : Nat)| = |(p : Int) - (fieldMag k * q : Nat)| ∧ r % 2 = 0) := by
  simp only [Int.abs_eq_natAbs]
  rcases hk.lt_or_gt with hlt | hgt
  · obtain ⟨hmid, htie⟩ := h.1 k hlt
    have hmono : fieldMag k * q < fieldMag r * q := Nat.mul_lt_mul_of_pos_right (fieldMag_strictMono hlt) hq
    rw [add_mul] at hmid htie
    omega
  · obtain ⟨hmid, htie⟩ := h.2 k hgt
    have hmono : fieldMag r * q < fieldMag k * q := Nat.mul_lt_mul_of_pos_right (fieldMag_strictMono hgt) hq
    rw [add_mul] at hmid htie
    omega

/-! ## Rounding of signed values -/

/-- The distance of an exact value to the candidates, the nearest of them of its own sign. -/
theorem RoundsTo.nearestEven {p q r : Nat} (h : RoundsTo p q r) (s t : Bool) (hq : 0 < q) (hr : r < fieldLimit) :
    Machine.nearestEven (signed s p) (signed t q) (ofField (s ^^ t) r) := by
  refine ⟨_, units?_ofField _ r hr, fun v w hv hw => ?_⟩
  have hopp : ((!(s ^^ t)) ^^ t) = !s := by cases s <;> cases t <;> rfl
  rw [signed_mul, Bool.xor_assoc, Bool.xor_self, Bool.xor_false, abs_signed_sub_same]
  obtain ⟨k, rfl | ⟨hk, rfl⟩⟩ := exists_field (s ^^ t) v w hv
  · rw [signed_mul, Bool.xor_assoc, Bool.xor_self, Bool.xor_false, abs_signed_sub_same]
    have hne : k ≠ r := by rintro rfl; exact hw rfl
    exact (h.closest hq hne).imp_right (And.imp_right (lastBitZero_ofField (s ^^ t) r hr))
  · rw [signed_mul, hopp, abs_signed_sub_opposite]
    have hpos : 0 < fieldMag k * q := Nat.mul_pos (by simpa using fieldMag_strictMono hk) hq
    have hwithin := h.le_double
    rw [Int.abs_eq_natAbs]
    omega

end Sys2Proof.F64
end

section
/-! PROOFS. Addition, multiplication, division and truncation (spec/00_scope.md R12, R14): each computes a number that
rounds as the exact result does, and rounds it once. -/

namespace Sys2Proof.F64

open Machine (nearestEven overflowBound signBit)

/-! ## Overflow -/

/-- `overflowBound` as a magnitude. -/
def overflowMag : Nat := (2 ^ 54 - 1) * 2 ^ 2044

theorem overflowBound_eq : overflowBound = (overflowMag : Int) := by
  have hsig : ((2 ^ 54 - 1 : Nat) : Int) = 2 ^ 54 - 1 := by norm_num
  rw [overflowBound, overflowMag, Nat.cast_mul, Nat.cast_pow, hsig, Nat.cast_ofNat]

/-- The overflow bound is the midpoint between the largest finite field and the one after it. -/
theorem overflowMag_midpoint : fieldMag (fieldLimit - 1) + fieldMag fieldLimit = 2 * overflowMag := by
  have hlast : fieldLimit - 1 = 2045 * 2 ^ 52 + (2 ^ 53 - 1) := by norm_num [fieldLimit]
  have hnext : fieldLimit = 2045 * 2 ^ 52 + 2 ^ 53 := by norm_num [fieldLimit]
  rw [hlast, fieldMag_scaled _ _ (by norm_num) (by norm_num), hnext, fieldMag_scaled _ _ (by norm_num) (by norm_num),
    ← add_mul, pow_succ 2 2044, overflowMag]
  generalize 2 ^ 2044 = u
  omega

/-- A rounding is beyond the largest finite field exactly from the overflow bound on: at the bound itself it is, since
the largest finite field is odd. -/
theorem RoundsTo.limit_le_iff {p q r : Nat} (h : RoundsTo p q r) (hq : 0 < q) :
    fieldLimit ≤ r ↔ overflowMag * q ≤ p := by
  have hsum : (fieldMag (fieldLimit - 1) + fieldMag fieldLimit) * q = 2 * (overflowMag * q) := by
    rw [overflowMag_midpoint, mul_assoc]
  rw [add_mul] at hsum
  constructor
  · intro hr
    have hmid := (h.1 (fieldLimit - 1) (by unfold fieldLimit at *; omega)).1
    have hmono : fieldMag fieldLimit * q ≤ fieldMag r * q := Nat.mul_le_mul_right q (fieldMag_strictMono.monotone hr)
    rw [add_mul] at hmid
    omega
  · intro hp
    by_contra hr
    obtain ⟨hmid, htie⟩ := h.2 fieldLimit (by omega)
    rw [add_mul] at hmid htie
    rcases Nat.lt_or_ge r (fieldLimit - 1) with hlt | hge
    · have hmono : fieldMag r * q < fieldMag (fieldLimit - 1) * q :=
        Nat.mul_lt_mul_of_pos_right (fieldMag_strictMono hlt) hq
      omega
    · have hr' : r = fieldLimit - 1 := by omega
      subst hr'
      have heven := htie (by omega)
      unfold fieldLimit at heven
      omega

/-- A rounding of the exact value `± p / ± q` is the nearest value below the overflow bound, and an infinity from it on. -/
theorem RoundsTo.correct {p q r : Nat} (h : RoundsTo p q r) (s t : Bool) (hq : 0 < q) :
    (|signed s p| < overflowBound * |signed t q| → Machine.nearestEven (signed s p) (signed t q) (ofField (s ^^ t) r)) ∧
    (overflowBound * |signed t q| ≤ |signed s p| → ofField (s ^^ t) r = .inf (s ^^ t)) := by
  have hlimit := h.limit_le_iff hq
  rw [overflowBound_eq, abs_signed, abs_signed]
  norm_cast
  constructor
  · exact fun hlt => h.nearestEven s t hq (by omega)
  · exact fun hle => ofField_of_le _ r (hlimit.2 hle)

/-- `roundTo` is correct for its exact value `± n * 2^-d`. -/
theorem roundTo_correct (s : Bool) (n d : Nat) :
    (|signed s n| < overflowBound * 2 ^ d → nearestEven (signed s n) (2 ^ d) (roundTo s n d)) ∧
    (overflowBound * 2 ^ d ≤ |signed s n| → roundTo s n d = .inf s) := by
  have h := (roundsTo_roundMag n d).correct s false (by positivity)
  have hscale : signed false (2 ^ d) = 2 ^ d := by simp [signed]
  have hpos : (0 : Int) ≤ 2 ^ d := by positivity
  rw [hscale, abs_of_nonneg hpos, Bool.xor_false] at h
  exact h

/-- What is at most a finite field's value rounds to a finite value at most that. -/
theorem units?_roundTo_le (s : Bool) (n d k : Nat) (hk : k < fieldLimit) (hn : n ≤ fieldMag k * 2 ^ d) :
    ∃ m ≤ fieldMag k, units? (roundTo s n d) = some (signed s m) := by
  have hle : roundMag n d ≤ k := (roundsTo_roundMag n d).le_of_le (by positivity) hn
  exact ⟨_, fieldMag_strictMono.monotone hle, units?_ofField s _ (by omega)⟩

/-! ## Finite operands -/

/-- A finite value is its sign and the size of its exact value. -/
theorem signed_signBit (a : F64) (x : Int) (h : units? a = some x) : signed (signBit a) x.natAbs = x := by
  cases a with
  | nan => cases h
  | inf s => cases h
  | num s e f => cases h; rw [natAbs_signed, signBit]

/-- A finite value is a zero when its exact value is. -/
theorem isZero_of_units (a : F64) (x : Int) (h : units? a = some x) : isZero a = decide (x = 0) := by
  cases a with
  | nan => cases h
  | inf s => cases h
  | num s e f =>
    cases h
    have hmag : signed s (magOf e f) = 0 ↔ e = 0 ∧ f = 0 := by
      rw [← Int.natAbs_eq_zero, natAbs_signed, magOf_eq_fieldMag, ← fieldMag_zero, fieldMag_strictMono.injective.eq_iff]
      rw [← BitVec.toNat_inj, Fin.ext_iff]
      simp
    simp [isZero, hmag, Bool.beq_eq_decide_eq]

/-- A product of finite values is rounded once. -/
theorem mul_of_units (a b : F64) (x y : Int) (ha : units? a = some x) (hb : units? b = some y) :
    a.mul b = roundTo (signBit a ^^ signBit b) (x.natAbs * y.natAbs) unitBits := by
  cases a with
  | nan => cases ha
  | inf s => cases ha
  | num s e f =>
    cases b with
    | nan => cases hb
    | inf t => cases hb
    | num t g k => cases ha; cases hb; rw [natAbs_signed, natAbs_signed]; rfl

/-- A quotient of finite values, the divisor not zero, is rounded once. -/
theorem div_of_units (a b : F64) (x y : Int) (ha : units? a = some x) (hb : units? b = some y) (hy : y ≠ 0) :
    a.div b = roundTo (signBit a ^^ signBit b) (quotient x.natAbs y.natAbs) 64 := by
  have hz : isZero b = false := by rw [isZero_of_units b y hb]; simpa using hy
  cases a with
  | nan => cases ha
  | inf s => cases ha
  | num s e f =>
    cases b with
    | nan => cases hb
    | inf t => cases hb
    | num t g k => cases ha; cases hb; simp only [div, hz, natAbs_signed, signBit, Bool.false_eq_true, if_false]

/-- Division of a finite value by zero. -/
theorem div_by_zero (a b : F64) (x : Int) (ha : units? a = some x) (hb : units? b = some 0) :
    a.div b = if x = 0 then .nan else .inf (signBit a ^^ signBit b) := by
  have hx := isZero_of_units a x ha
  have hz := isZero_of_units b 0 hb
  cases a with
  | nan => cases ha
  | inf s => cases ha
  | num s e f =>
    cases b with
    | nan => cases hb
    | inf t => cases hb
    | num t g k => simp [div, hz, hx, signBit]

/-! ## Addition -/

theorem nearestEven_zero (r : F64) (h : units? r = some 0) : nearestEven 0 1 r := by
  refine ⟨0, h, fun v w _ hw => .inl ?_⟩
  simpa using hw

theorem add_finite_correct (a b : F64) (x y : Int) (ha : units? a = some x) (hb : units? b = some y) :
    (|x + y| < overflowBound → nearestEven (x + y) 1 (a.add b)) ∧
    (overflowBound ≤ |x + y| → a.add b = .inf (decide (x + y < 0))) := by
  by_cases hsum : x + y = 0
  · have hpos : 0 < overflowBound := by unfold overflowBound; positivity
    rw [hsum, abs_zero]
    exact ⟨fun _ => nearestEven_zero _ (units?_add_of_eq_zero a b x y ha hb hsum), fun h => absurd h (by omega)⟩
  · rw [add_of_ne_zero a b x y ha hb hsum]
    have h := roundTo_correct (decide (x + y < 0)) (x + y).natAbs 0
    rwa [signed_decide_natAbs, pow_zero, mul_one] at h

/-- An exact zero sum is `-0.0` only of two `-0.0` addends. -/
theorem add_of_eq_zero (a b : F64) (x y : Int) (ha : units? a = some x) (hb : units? b = some y) (h : x + y = 0) :
    a.add b = .num (signBit a && signBit b) 0 0 := by
  cases a with
  | nan => cases ha
  | inf s => cases ha
  | num s e f =>
    cases b with
    | nan => cases hb
    | inf t => cases hb
    | num t g k =>
      cases ha; cases hb
      simp only [add, if_pos h, signBit]

theorem add_nan (a : F64) : F64.add .nan a = .nan ∧ F64.add a .nan = .nan := by
  cases a <;> exact ⟨rfl, rfl⟩

theorem add_inf_of_units (s : Bool) (a : F64) (x : Int) (h : units? a = some x) :
    F64.add (.inf s) a = .inf s ∧ F64.add a (.inf s) = .inf s := by
  cases a with
  | nan => cases h
  | inf t => cases h
  | num t e f => exact ⟨rfl, rfl⟩

theorem add_inf_inf (s : Bool) : F64.add (.inf s) (.inf s) = .inf s ∧ F64.add (.inf s) (.inf (!s)) = .nan := by
  cases s <;> exact ⟨rfl, rfl⟩

/-- Settles O17: the exact sum is rounded once by `roundTo`, which is correct; zero sums, infinities and NaNs are the
cases of `add`. -/
theorem additionRoundsToNearestEven : Obligations.AdditionRoundsToNearestEven := by
  refine ⟨fun a b x y ha hb => ?_, add_nan, add_inf_of_units, add_inf_inf⟩
  obtain ⟨hnear, hover⟩ := add_finite_correct a b x y ha hb
  exact ⟨hnear, hover, add_of_eq_zero a b x y ha hb⟩

/-! ## Multiplication -/

theorem mul_finite_correct (a b : F64) (x y : Int) (ha : units? a = some x) (hb : units? b = some y) :
    (|x * y| < overflowBound * 2 ^ 1074 → nearestEven (x * y) (2 ^ 1074) (a.mul b)) ∧
    (overflowBound * 2 ^ 1074 ≤ |x * y| → a.mul b = .inf (signBit a ^^ signBit b)) := by
  have hxy : signed (signBit a ^^ signBit b) (x.natAbs * y.natAbs) = x * y := by
    rw [← signed_mul, signed_signBit a x ha, signed_signBit b y hb]
  rw [mul_of_units a b x y ha hb, ← hxy]
  exact roundTo_correct _ _ unitBits

/-- The sign of a product other than zero is that of the operands' signs. -/
theorem xor_signBit_of_ne_zero (a b : F64) (x y : Int) (ha : units? a = some x) (hb : units? b = some y)
    (h : x * y ≠ 0) : (signBit a ^^ signBit b) = decide (x * y < 0) := by
  have hpos : 0 < x.natAbs * y.natAbs := by rw [← Int.natAbs_mul]; exact Int.natAbs_pos.2 h
  conv_rhs => rw [← signed_signBit a x ha, ← signed_signBit b y hb, signed_mul, decide_signed_lt_zero _ _ hpos]

theorem mul_nan (a : F64) : F64.mul .nan a = .nan ∧ F64.mul a .nan = .nan := by
  cases a <;> exact ⟨rfl, rfl⟩

theorem mul_inf_of_units (s : Bool) (a : F64) (x : Int) (h : units? a = some x) :
    F64.mul (.inf s) a = (if x = 0 then .nan else .inf (s ^^ signBit a)) ∧
    F64.mul a (.inf s) = (if x = 0 then .nan else .inf (signBit a ^^ s)) := by
  have hz := isZero_of_units a x h
  cases a with
  | nan => cases h
  | inf t => cases h
  | num t e f => simp [mul, hz, signBit]

/-- Settles O18: the exact product is rounded once by `roundTo`, which is correct; an overflowing product is not zero, so
that its sign is that of the operands' signs. -/
theorem multiplicationRoundsToNearestEven : Obligations.MultiplicationRoundsToNearestEven := by
  refine ⟨fun a b x y ha hb => ?_, mul_nan, mul_inf_of_units, fun s t => rfl⟩
  obtain ⟨hnear, hover⟩ := mul_finite_correct a b x y ha hb
  refine ⟨hnear, fun h => ?_, ?_⟩
  · have hpos : 0 < overflowBound * 2 ^ 1074 := by unfold overflowBound; positivity
    have hne : x * y ≠ 0 := by intro h0; rw [h0, abs_zero] at h; omega
    rw [hover h, xor_signBit_of_ne_zero a b x y ha hb hne]
  · rw [mul_of_units a b x y ha hb]
    exact signBit_ofField _ _

/-! ## Division -/

/-- The sign of a finite value other than zero is that of its exact value. -/
theorem signBit_of_units (a : F64) (x : Int) (h : units? a = some x) (hx : x ≠ 0) : signBit a = decide (x < 0) := by
  conv_rhs => rw [← signed_signBit a x h, decide_signed_lt_zero _ _ (Int.natAbs_pos.2 hx)]

/-- `quotient` is on the same side of every even number as the exact quotient: its last bit stands for the remainder. -/
theorem le_quotient_iff (a b c : Nat) (hb : 0 < b) : 2 * c ≤ quotient a b ↔ c * b ≤ a * 2 ^ (unitBits + 63) := by
  unfold quotient
  rw [← Nat.le_div_iff_mul_le hb]
  dsimp only
  split <;> omega

theorem quotient_le_iff (a b c : Nat) (hb : 0 < b) : quotient a b ≤ 2 * c ↔ a * 2 ^ (unitBits + 63) ≤ c * b := by
  unfold quotient
  generalize a * 2 ^ (unitBits + 63) = n
  have hdiv : n / b * b + n % b = n := Nat.div_add_mod' n b
  have hlt : n / b < c ↔ n < c * b := Nat.div_lt_iff_lt_mul hb
  have hle : n / b * b ≤ c * b ↔ n / b ≤ c := Nat.mul_le_mul_right_iff hb
  dsimp only
  split
  · omega
  · rename_i hr
    have hne : n ≠ c * b := by rintro rfl; exact hr (Nat.mul_mod_left c b)
    omega

/-- The magnitude `quotient` gives rounds as the exact quotient `a / b` does. -/
theorem roundsTo_quotient (a b : Nat) (hb : 0 < b) :
    RoundsTo (a * 2 ^ unitBits) b (roundMag (quotient a b) 64) := by
  have hscale : a * 2 ^ (unitBits + 63) = 2 ^ 63 * (a * 2 ^ unitBits) := by rw [pow_add]; ring
  have hmul (m : Nat) : m * 2 ^ 62 * b = 2 ^ 62 * (m * b) := by ring
  refine (roundsTo_roundMag (quotient a b) 64).congr (fun m => ?_) (fun m => ?_)
  · have h := le_quotient_iff a b (m * 2 ^ 62) hb
    rw [hscale, hmul] at h
    omega
  · have h := quotient_le_iff a b (m * 2 ^ 62) hb
    rw [hscale, hmul] at h
    omega

theorem div_finite_correct (a b : F64) (x y : Int) (ha : units? a = some x) (hb : units? b = some y) (hy : y ≠ 0) :
    (|x * 2 ^ 1074| < overflowBound * |y| → nearestEven (x * 2 ^ 1074) y (a.div b)) ∧
    (overflowBound * |y| ≤ |x * 2 ^ 1074| → a.div b = .inf (signBit a ^^ signBit b)) := by
  have hx : signed (signBit a) (x.natAbs * 2 ^ unitBits) = x * 2 ^ 1074 := by
    have h := signed_mul (signBit a) false x.natAbs (2 ^ unitBits)
    rw [signed_signBit a x ha, Bool.xor_false] at h
    rw [← h, signed, if_neg Bool.false_ne_true, Nat.cast_pow, Nat.cast_ofNat, unitBits]
  have h := (roundsTo_quotient x.natAbs y.natAbs (Int.natAbs_pos.2 hy)).correct (signBit a) (signBit b)
    (Int.natAbs_pos.2 hy)
  rw [hx, signed_signBit b y hb] at h
  rw [div_of_units a b x y ha hb hy]
  exact h

theorem div_nan (a : F64) : F64.div .nan a = .nan ∧ F64.div a .nan = .nan := by
  cases a <;> exact ⟨rfl, rfl⟩

theorem div_inf_of_units (s : Bool) (a : F64) (x : Int) (h : units? a = some x) :
    F64.div (.inf s) a = .inf (s ^^ signBit a) ∧ F64.div a (.inf s) = .num (signBit a ^^ s) 0 0 := by
  cases a with
  | nan => cases h
  | inf t => cases h
  | num t e f => exact ⟨rfl, rfl⟩

/-- Settles O19: the exact quotient is rounded once, through `quotient`, which keeps it on its side of every midpoint; an
overflowing quotient is not zero, so that its sign is that of the operands' signs. -/
theorem divisionRoundsToNearestEven : Obligations.DivisionRoundsToNearestEven := by
  refine ⟨fun a b x y ha hb hy => ?_, div_by_zero, div_nan, div_inf_of_units, fun s t => rfl⟩
  obtain ⟨hnear, hover⟩ := div_finite_correct a b x y ha hb hy
  refine ⟨hnear, fun h => ?_, ?_⟩
  · have hpos : 0 < overflowBound * |y| := mul_pos (by unfold overflowBound; positivity) (abs_pos.2 hy)
    have hx : x ≠ 0 := by rintro rfl; rw [zero_mul, abs_zero] at h; omega
    rw [hover h, signBit_of_units a x ha hx, signBit_of_units b y hb hy]
  · rw [div_of_units a b x y ha hb hy]
    exact signBit_ofField _ _

/-! ## Truncation -/

/-- Dropping the bits below the unit truncates toward zero. -/
theorem signed_div (s : Bool) (m d : Nat) : signed s (m / d) = (signed s m).tdiv d := by
  cases s <;> simp [signed, Int.neg_tdiv]

/-- The bound of R14 as a magnitude. -/
theorem truncBound_eq : (32767 * 2 ^ 1074 : Int) = (32767 * 2 ^ unitBits : Nat) := by
  rw [Nat.cast_mul, Nat.cast_pow, Nat.cast_ofNat, Nat.cast_ofNat, unitBits]

/-- Settles O21: in the stated range `trunc16` is the signed quotient of the magnitude, which fits a sample. -/
theorem truncationIsTowardZero : Obligations.TruncationIsTowardZero := by
  intro v u hv hu
  cases v with
  | nan => cases hv
  | inf s => cases hv
  | num s e f =>
    cases hv
    rw [abs_signed, truncBound_eq, Int.ofNat_le] at hu
    have hquot : (magOf e f / 2 ^ unitBits : Nat) ≤ 32767 := Nat.div_le_of_le_mul (mul_comm 32767 _ ▸ hu)
    have hrange := abs_signed s (magOf e f / 2 ^ unitBits)
    obtain ⟨hlo, hhi⟩ := abs_le.1 hrange.le
    rw [trunc16, if_pos hu, BitVec.toInt_ofInt_eq_self (by norm_num) (by omega) (by omega), signed_div, Nat.cast_pow,
      Nat.cast_ofNat, unitBits]

end Sys2Proof.F64
end

section
/-! PROOFS. The synthesized sample is in range (spec/43_modulator.md R191): a sine rounds to at most 1, its product with
the amplitude to at most the amplitude, and truncation keeps that. -/

namespace Sys2Proof.F64

/-- The magnitude of `1.0`. -/
theorem fieldMag_one : fieldMag (1022 * 2 ^ 52 + 2 ^ 52) = 2 ^ unitBits := by
  rw [fieldMag_scaled _ _ (by norm_num) (by norm_num), ← pow_add, unitBits]

/-- The magnitude of the amplitude, 32767.0. -/
theorem fieldMag_amplitude : fieldMag (1036 * 2 ^ 52 + 32767 * 2 ^ 38) = 32767 * 2 ^ unitBits := by
  rw [fieldMag_scaled _ _ (by norm_num) (by norm_num), mul_assoc, ← pow_add, unitBits]

theorem units?_amplitude : units? Config.amplitude = some (signed false (32767 * 2 ^ unitBits)) := by
  rw [Config.amplitude, units?, magOf_eq_fieldMag, ← fieldMag_amplitude]
  rfl

/-- A factor of magnitude at most 1 keeps a product with the amplitude within the amplitude. -/
theorem units?_amplitude_mul (v : F64) (s : Bool) (m : Nat) (hv : units? v = some (signed s m)) (hm : m ≤ 2 ^ unitBits) :
    ∃ t, ∃ n ≤ 32767 * 2 ^ unitBits, units? (Config.amplitude.mul v) = some (signed t n) := by
  rw [mul_of_units _ _ _ _ units?_amplitude hv, natAbs_signed, natAbs_signed]
  obtain ⟨n, hn, hunits⟩ := units?_roundTo_le (Machine.signBit Config.amplitude ^^ Machine.signBit v)
    (32767 * 2 ^ unitBits * m) unitBits (1036 * 2 ^ 52 + 32767 * 2 ^ 38) (by norm_num [fieldLimit])
    (by rw [fieldMag_amplitude]; exact Nat.mul_le_mul_left _ hm)
  exact ⟨_, n, fieldMag_amplitude ▸ hn, hunits⟩

/-- A value of magnitude at most 32767.0 truncates to a sample of magnitude at most 32767. -/
theorem abs_trunc16_le (v : F64) (s : Bool) (n : Nat) (hv : units? v = some (signed s n)) (hn : n ≤ 32767 * 2 ^ unitBits) :
    |(trunc16 v).toInt| ≤ 32767 := by
  have hunit : (2 ^ 1074 : Int) = (2 ^ unitBits : Nat) := by rw [Nat.cast_pow, Nat.cast_ofNat, unitBits]
  have hrange : |signed s n| ≤ 32767 * 2 ^ 1074 := by rwa [abs_signed, truncBound_eq, Int.ofNat_le]
  have hquot : n / 2 ^ unitBits ≤ 32767 := Nat.div_le_of_le_mul (mul_comm 32767 _ ▸ hn)
  rw [truncationIsTowardZero v _ hv hrange, hunit, ← signed_div, abs_signed]
  omega

end Sys2Proof.F64

namespace Sys2Proof.Trans

open F64 (units? signed)

/-- A value settled between bounds of magnitude at most 1 is at most 1. -/
theorem units?_settle_le_one (up neg : Bool) (lo hi : Nat) (hlo : lo ≤ 2 ^ prec) (hhi : hi ≤ 2 ^ prec) :
    ∃ s, ∃ m ≤ 2 ^ F64.unitBits, units? (settle up neg lo hi (prec - F64.unitBits)) = some (signed s m) := by
  have hprec : F64.unitBits ≤ prec := by norm_num [F64.unitBits, prec]
  have hround (n : Nat) (hn : n ≤ 2 ^ prec) :
      ∃ m ≤ 2 ^ F64.unitBits, units? (F64.roundTo neg n (prec - F64.unitBits)) = some (signed neg m) := by
    obtain ⟨m, hm, hunits⟩ := F64.units?_roundTo_le neg n (prec - F64.unitBits) (1022 * 2 ^ 52 + 2 ^ 52)
      (by norm_num [F64.fieldLimit]) (by rw [F64.fieldMag_one, ← pow_add, Nat.add_sub_cancel' hprec]; exact hn)
    exact ⟨m, F64.fieldMag_one ▸ hm, hunits⟩
  unfold settle
  refine ⟨neg, ?_⟩
  split
  · exact hround lo hlo
  · cases up
    · exact hround lo hlo
    · exact hround hi hhi

theorem units?_settleUnit_le_one (up neg : Bool) (v : Int) :
    ∃ s, ∃ m ≤ 2 ^ F64.unitBits, units? (settleUnit up neg v) = some (signed s m) :=
  units?_settle_le_one up _ _ _ (min_le_right _ _) (min_le_right _ _)

/-- The sine of a finite value is at most 1 in magnitude. -/
theorem units?_sin_le_one (v : F64) (u : Int) (hv : units? v = some u) :
    ∃ s, ∃ m ≤ 2 ^ F64.unitBits, units? (sin v) = some (signed s m) := by
  cases v with
  | nan => cases hv
  | inf s => cases hv
  | num s e f =>
    rw [sin, sinMag]
    split <;> exact units?_settleUnit_le_one _ _ _

end Sys2Proof.Trans

namespace Sys2Proof.Machine

/-- A phase in its range is finite: the infinities stand outside `[0, 2 pi)` in the order. -/
theorem units?_of_phaseInRange (v : F64) (h : phaseInRange v) : ∃ u, F64.units? v = some u := by
  obtain ⟨hge, hlt⟩ := h
  cases v with
  | nan => cases hge
  | num s e f => exact ⟨_, rfl⟩
  | inf s =>
    cases s with
    | false => exact absurd hlt (by decide +kernel)
    | true => exact absurd hge (by decide +kernel)

/-- Settles O42: the phase is finite, so its sine is at most 1 in magnitude, whatever its last bits. -/
theorem synthesizedSampleIsInRange : Obligations.SynthesizedSampleIsInRange := by
  intro s hs
  obtain ⟨u, hu⟩ := units?_of_phaseInRange s.phi hs
  obtain ⟨b, m, hm, hsin⟩ := Trans.units?_sin_le_one s.phi u hu
  obtain ⟨c, n, hn, hprod⟩ := F64.units?_amplitude_mul _ b m hsin hm
  exact F64.abs_trunc16_le _ c n hprod hn

end Sys2Proof.Machine
end

section
/-! PROOFS. A step carries out the decoded stimulus, and an operation presented by name while disabled is refused
(spec/00_scope.md R10, spec/30_encoding.md R94, R96). -/

namespace Sys2Proof.Machine

/-! ## The decoded stimulus -/

/-- A step whose stimulus is decoded runs the instruction on the state past the stimulus. -/
theorem step_of_fetchDecoded (s t : State) (d : Except DecodeError Instr) (i : Instr)
    (hf : fetch s = fetchDecoded d t) (hd : d = .ok i) : step s = exec i t := by
  rw [step, hf, hd]
  rfl

theorem decodeNamed_of_wellFormed (i : Instr) (h : i.wellFormed = true) : decodeNamed i = .ok i := if_pos h

/-- Settles O1: each kind of stimulus by the lemma on its fetch. -/
theorem stepRunsTheDecodedStimulus : Obligations.StepRunsTheDecodedStimulus := by
  intro s rest
  refine ⟨fun w i hs hd => ?_, fun b i hs hd => ?_, fun i hs hw => ?_, fun v hs => ?_, fun hs => ?_⟩
  · exact step_of_fetchDecoded s _ _ i (fetch_word s w rest hs) hd
  · exact step_of_fetchDecoded s _ _ i (fetch_code s b rest hs) hd
  · exact step_of_fetchDecoded s _ _ i (fetch_op s i rest hs) (decodeNamed_of_wellFormed i hw)
  · rw [step, fetch_offer s v rest hs, carryOut]
  · rw [step, fetch_nil s hs, carryOut]

/-! ## Disabled operations -/

/-- An operation presented by name while disabled is refused. -/
theorem whenEnabled_of_disabled (name : String) (e : Bool) (t : State) (h : e = false) :
    whenEnabled name e t = .refused (.notEnabled name) := by
  rw [h]
  rfl

/-- A CODE5 row runs DECODE of its code word. -/
theorem exec_of_codeWord (i : Instr) (code : Code) (s : State) (h : i.codeWord? = some code) :
    ∃ name, exec i s = runDecode hw name code s := by
  cases i <;> cases h <;> exact ⟨_, rfl⟩

/-- Where no RX_SAMPLE of the present sample decodes the code word, the rows that decode it are refused. -/
theorem exec_decode_of_disabled (i : Instr) (code : Code) (s : State) (hi : i.codeWord? = some code ∨ i = .decode code)
    (h : decodeEnabled hw code s = false) : ∃ name, exec i s = .refused (.notEnabled name) := by
  obtain ⟨name, hrun⟩ : ∃ name, exec i s = runDecode hw name code s := by
    rcases hi with hcode | rfl
    · exact exec_of_codeWord i code s hcode
    · exact ⟨_, rfl⟩
  exact ⟨name, hrun.trans (whenEnabled_of_disabled name _ _ h)⟩

theorem decodeEnabled_of_absent (c : Config.Cfg) (code : Code) (s : State) (h : s.capSample = none) :
    decodeEnabled c code s = false := by
  rw [decodeEnabled, h]

theorem decodeEnabled_of_present (c : Config.Cfg) (code : Code) (v : Sample) (s : State) (h : s.capSample = some v) :
    decodeEnabled c code s = decodesWord c code v s := by
  rw [decodeEnabled, h]

/-- Settles O10: every meaning named here is guarded by `whenEnabled`, DECODE with the condition that `decodesWord_iff`
spells out. -/
theorem disabledOperationsAreNoStep : Obligations.DisabledOperationsAreNoStep := by
  intro s resp drained v
  refine ⟨whenEnabled_of_disabled _ _ _, whenEnabled_of_disabled _ _ _, whenEnabled_of_disabled _ _ _,
    whenEnabled_of_disabled _ _ _, whenEnabled_of_disabled _ _ _, whenEnabled_of_disabled _ _ _,
    whenEnabled_of_disabled _ _ _, whenEnabled_of_disabled _ _ _, fun code i hi => ⟨fun habsent => ?_, fun hpresent hnot => ?_⟩⟩
  · exact exec_decode_of_disabled i code s hi (decodeEnabled_of_absent hw code s habsent)
  · refine exec_decode_of_disabled i code s hi ?_
    rw [decodeEnabled_of_present hw code v s hpresent]
    exact Bool.eq_false_iff.2 fun h => hnot ((decodesWord_iff hw code v s).1 h)

end Sys2Proof.Machine
end

section
/-! PROOFS. What an instruction does, agent by agent (spec/10_state.md R20, R22): one inversion of `exec` for each of RX,
TX and HOST, which the invariants of this family rest on. -/

namespace Sys2Proof.Machine

/-! ## The enabling conditions, read -/

theorem rxSampleEnabled_run (s : State) (h : rxSampleEnabled s = true) : s.rxState = .run := by
  simp only [rxSampleEnabled, Bool.and_eq_true, beq_iff_eq] at h
  exact h.1

theorem rxHaltEnabled_run (s : State) (h : rxHaltEnabled s = true) : s.rxState = .run := by
  simp only [rxHaltEnabled, Bool.and_eq_true, beq_iff_eq] at h
  exact h.1.1

theorem txWakeEnabled_idle (s : State) (h : txWakeEnabled s = true) : s.txState = .idle := by
  simp only [txWakeEnabled, Bool.and_eq_true, beq_iff_eq] at h
  exact h.1.1

theorem txLoadEnabled_sending (s : State) (h : txLoadEnabled s = true) : s.txState = .sending ∧ s.txFrame = none := by
  simp only [txLoadEnabled, Bool.and_eq_true, beq_iff_eq] at h
  exact h.1

theorem txSampleEnabled_sending (resp : PlayResp) (s : State) (h : txSampleEnabled resp s = true) :
    s.txState = .sending := by
  simp only [txSampleEnabled, Bool.and_eq_true, beq_iff_eq] at h
  exact h.1.1

theorem txResumeEnabled_draining (s : State) (h : txResumeEnabled s = true) : s.txState = .draining := by
  simp only [txResumeEnabled, Bool.and_eq_true, beq_iff_eq] at h
  exact h.1.1

theorem txStopEnabled_draining (drained : Bool) (s : State) (h : txStopEnabled drained s = true) :
    s.txState = .draining := by
  simp only [txStopEnabled, Bool.and_eq_true, beq_iff_eq] at h
  exact h.1.1.1

theorem txHaltEnabled_boundary (s : State) (h : txHaltEnabled s = true) :
    s.txState = .idle ∨ s.txState = .draining ∨ s.txState = .sending := by
  simp only [txHaltEnabled, txAtBoundary, Bool.and_eq_true, Bool.or_eq_true, beq_iff_eq] at h
  obtain ⟨-, (hidle | hdraining) | ⟨hsending, -⟩⟩ := h
  · exact .inl hidle
  · exact .inr (.inl hdraining)
  · exact .inr (.inr hsending)

/-! ## Agent RX -/

/-- What a step of agent RX does: one RX_SAMPLE, which may take the sample that is present, or RX_HALT, or nothing. -/
inductive ReceiveEffect (s : State) : State → Prop
  | sample (v : Sample) (present : Option Sample) (hrun : s.rxState = .run) :
      ReceiveEffect s (rxSampleStep hw v { s with capSample := present })
  | halt (hrun : s.rxState = .run) : ReceiveEffect s (rxHaltStep s)
  | wait : ReceiveEffect s s

theorem performsReceive_cases (i : Instr) (hi : performsReceive i = true) :
    (∃ code, i.codeWord? = some code ∨ i = .decode code) ∨ (∃ v, i = .sample v) ∨ (∃ v, i = .rxSample v) ∨
      i = .rxHalt := by
  cases i
  case sample v => exact .inr (.inl ⟨v, rfl⟩)
  case rxSample v => exact .inr (.inr (.inl ⟨v, rfl⟩))
  case rxHalt => exact .inr (.inr (.inr rfl))
  case decode code => exact .inl ⟨code, .inr rfl⟩
  case reset | opReset | push | hostEnq | shutdown | opShutdown => cases hi
  case txtick | txWake | txLoad | txSample | txResume | txStop | txHalt => cases hi
  all_goals exact .inl ⟨_, .inl rfl⟩

/-- The rows that decode a code word run DECODE of it. -/
theorem exec_decode_eq (i : Instr) (code : Code) (s : State) (hi : i.codeWord? = some code ∨ i = .decode code) :
    ∃ name, exec i s = runDecode hw name code s := by
  rcases hi with hcode | rfl
  · exact exec_of_codeWord i code s hcode
  · exact ⟨_, rfl⟩

theorem exec_receive (i : Instr) (s t : State) (hi : performsReceive i = true) (h : exec i s = .next t) :
    ReceiveEffect s t := by
  rcases performsReceive_cases i hi with ⟨code, hcode⟩ | ⟨v, rfl⟩ | ⟨v, rfl⟩ | rfl
  · obtain ⟨name, hrun⟩ := exec_decode_eq i code s hcode
    obtain ⟨henabled, v, -, rfl⟩ := runDecode_next name code s t (hrun ▸ h)
    exact .sample v none (rxSampleEnabled_run s henabled)
  · obtain rfl : sampleLine hw v s = t := Host.Outcome.next.inj h
    rcases sampleLine_cases hw v s with ⟨henabled, h⟩ | ⟨henabled, h⟩ | ⟨-, -, h⟩ <;> rw [h]
    · exact .sample v s.capSample (rxSampleEnabled_run s henabled)
    · exact .halt (rxHaltEnabled_run s henabled)
    · exact .wait
  · obtain ⟨henabled, rfl⟩ := (whenEnabled_next _ _ _ _).1 h
    exact .sample v s.capSample (rxSampleEnabled_run s henabled)
  · obtain ⟨henabled, rfl⟩ := (whenEnabled_next _ _ _ _).1 h
    exact .halt (rxHaltEnabled_run s henabled)

/-! ## Agent TX -/

/-- What a step of agent TX does (spec/43_modulator.md R181 to R188, spec/60_exceptions.md R245, R263): TX_LOAD by the
queue and the pending codes, TX_SAMPLE by the answer. -/
inductive TransmitEffect (s : State) : State → Prop
  | wake (hidle : s.txState = .idle) : TransmitEffect s (txWakeStep s)
  | load (code : Code) (rest : List Code) (hsending : s.txState = .sending) (hpending : s.txPending = code :: rest) :
      TransmitEffect s { s with txPending := rest, txFrame := some ⟨code, 0, 0⟩ }
  | take (ch : Char8) (queue : List Char8) (code : Code) (rest : List Code) (mode : Shift)
      (hsending : s.txState = .sending) (hqueue : s.queue = ch :: queue) (hrest : rest.length ≤ 1) :
      TransmitEffect s
        { s with queue := queue, txShift := mode, txPending := rest, txFrame := some ⟨code, 0, 0⟩ }
  | skip (ch : Char8) (queue : List Char8) (hqueue : s.queue = ch :: queue) :
      TransmitEffect s (emit (.skipped ch) { s with queue := queue })
  | drain (hsending : s.txState = .sending) (hframe : s.txFrame = none) (hpending : s.txPending = []) :
      TransmitEffect s { s with txState := .draining }
  | accept (f : TxFrame) (hsending : s.txState = .sending) (hframe : s.txFrame = some f) :
      TransmitEffect s (txAcceptSample hw f s)
  | stall (hsending : s.txState = .sending) : TransmitEffect s (txFault hw causeStall s)
  | resume (hdraining : s.txState = .draining) : TransmitEffect s (txResumeStep s)
  | stop (hdraining : s.txState = .draining) : TransmitEffect s (txStopStep hw s)
  | halt (hboundary : s.txState = .idle ∨ s.txState = .draining ∨ s.txState = .sending) :
      TransmitEffect s (txHaltStep hw s)
  | wait : TransmitEffect s s

/-- A character taken off the queue is skipped, or its first code word becomes the frame. -/
theorem loadFrame_encodeCharacter (ch : Char8) (queue : List Char8) (s : State) (hsending : s.txState = .sending)
    (hpending : s.txPending = []) (hqueue : s.queue = ch :: queue) :
    TransmitEffect s (loadFrame (encodeCharacter hw ch { s with queue := queue })) := by
  rcases encodeCharacter_cases hw ch { s with queue := queue } with ⟨-, h⟩ | ⟨k, sel, -, -, h⟩ | ⟨k, -, h⟩ <;> rw [h]
  · have hload : loadFrame (emit (.skipped ch) { s with queue := queue }) = emit (.skipped ch) { s with queue := queue } := by
      simp [loadFrame, hpending]
    rw [hload]
    exact .skip ch queue hqueue
  · exact .take ch queue (shiftCode sel) [k] sel hsending hqueue (by simp)
  · exact .take ch queue k [] s.txShift hsending hqueue (by simp)

theorem txLoadStep_effect (s : State) (h : txLoadEnabled s = true) : TransmitEffect s (txLoadStep hw s) := by
  obtain ⟨hsending, hframe⟩ := txLoadEnabled_sending s h
  rcases txLoadStep_cases hw s with ⟨hpending, h⟩ | ⟨hpending, -, h⟩ | ⟨ch, queue, hpending, hqueue, h⟩ <;> rw [h]
  · rcases loadFrame_cases s with ⟨hnil, -⟩ | ⟨code, rest, hcons, h⟩
    · exact absurd hnil hpending
    · rw [h]
      exact .load code rest hsending hcons
  · exact .drain hsending hframe hpending
  · exact loadFrame_encodeCharacter ch queue s hsending hpending hqueue

theorem txSampleStep_effect (resp : PlayResp) (s : State) (h : txSampleEnabled resp s = true) :
    TransmitEffect s (txSampleStep hw resp s) := by
  have hsending := txSampleEnabled_sending resp s h
  obtain ⟨f, hframe, ⟨-, h⟩ | ⟨-, h⟩⟩ := txSampleStep_cases hw resp s h <;> rw [h]
  · exact .accept f hsending hframe
  · rw [raiseFault_transmit hw causeStall s (by decide)]
    exact .stall hsending

/-- An enabled operation of agent TX. -/
theorem txStep_effect (resp : PlayResp) (drained : Bool) (s : State) (op : TxOp)
    (h : txEnabled resp drained s op = true) : TransmitEffect s (txStep hw resp s op) := by
  cases op with
  | wake => exact .wake (txWakeEnabled_idle s h)
  | load => exact txLoadStep_effect s h
  | sample => exact txSampleStep_effect resp s h
  | resume => exact .resume (txResumeEnabled_draining s h)
  | stop => exact .stop (txStopEnabled_draining drained s h)
  | halt => exact .halt (txHaltEnabled_boundary s h)

theorem exec_transmit (i : Instr) (s t : State) (hi : performsTransmit i = true) (h : exec i s = .next t) :
    TransmitEffect s t := by
  have named (name : String) (resp : PlayResp) (drained : Bool) (op : TxOp)
      (h : whenEnabled name (txEnabled resp drained s op) (txStep hw resp s op) = .next t) : TransmitEffect s t := by
    obtain ⟨henabled, rfl⟩ := (whenEnabled_next _ _ _ _).1 h
    exact txStep_effect resp drained s op henabled
  cases i
  case txtick resp drained =>
    obtain rfl : txtickLine hw resp drained s = t := Host.Outcome.next.inj h
    rcases txtickLine_cases hw resp drained s with ⟨op, hop, h⟩ | ⟨-, h⟩ <;> rw [h]
    · exact txStep_effect resp drained s op (txChoice_enabled _ _ _ _ hop)
    · exact .wait
  case txWake => exact named _ .accept false .wake h
  case txLoad => exact named _ .accept false .load h
  case txSample resp => exact named _ resp false .sample h
  case txResume => exact named _ .accept false .resume h
  case txStop drained => exact named _ .accept drained .stop h
  case txHalt => exact named _ .accept false .halt h
  all_goals cases hi

/-! ## HOST and the platform -/

/-- The rows of no other agent: a text is enqueued, or the shutdown request is latched. -/
theorem exec_host (i : Instr) (s t : State) (hreset : performsReset i = false) (hreceive : performsReceive i = false)
    (htransmit : performsTransmit i = false) (h : exec i s = .next t) :
    (∃ text, t = hostEnqStep hw text s) ∨ ((i = .shutdown ∨ i = .opShutdown) ∧ t = shutdownStep s) := by
  cases i
  case push c => cases h; exact .inl ⟨[c], rfl⟩
  case hostEnq text => cases h; exact .inl ⟨text, rfl⟩
  case shutdown => cases h; exact .inr ⟨.inl rfl, rfl⟩
  case opShutdown =>
    have h : whenEnabled "SHUTDOWN" (shutdownEnabled hw) (shutdownStep s) = .next t := h
    exact .inr ⟨.inr rfl, ((whenEnabled_next _ _ _ _).1 h).2⟩
  case reset | opReset => cases hreset
  case txtick | txWake | txLoad | txSample | txResume | txStop | txHalt => cases htransmit
  all_goals cases hreceive

theorem exec_reset (i : Instr) (s t : State) (hi : performsReset i = true) (h : exec i s = .next t) :
    ∃ capOk playOk, t = resetBlock hw capOk playOk s := by
  have hreset (capOk playOk : Bool) (h : runReset hw capOk playOk s = .next t) :
      ∃ capOk playOk, t = resetBlock hw capOk playOk s := by
    rw [runReset_hw] at h
    cases h
    exact ⟨capOk, playOk, rfl⟩
  cases i
  case reset capOk playOk => exact hreset capOk playOk h
  case opReset capOk playOk => exact hreset capOk playOk h
  all_goals cases hi

/-- Every instruction but RESET is a step of agent RX, of agent TX, or of HOST and the platform. -/
theorem exec_agents (i : Instr) (s t : State) (h : exec i s = .next t) (hreset : performsReset i = false) :
    ReceiveEffect s t ∨ TransmitEffect s t ∨ (∃ text, t = hostEnqStep hw text s) ∨
      ((i = .shutdown ∨ i = .opShutdown) ∧ t = shutdownStep s) := by
  cases hreceive : performsReceive i with
  | true => exact .inl (exec_receive i s t hreceive h)
  | false =>
    cases htransmit : performsTransmit i with
    | true => exact .inr (.inl (exec_transmit i s t htransmit h))
    | false => exact .inr (.inr (exec_host i s t hreset hreceive htransmit h))

end Sys2Proof.Machine
end

section
/-! PROOFS. What each agent's steps leave unchanged and what lasts until RESET (spec/10_state.md R29, R33, R36, R41, R42,
R45, R68), one lemma for each agent. -/

namespace Sys2Proof.Machine

/-! ## The agents' fields (R22, R68) -/

theorem ReceiveEffect.keepsTransmitter {s t : State} (h : ReceiveEffect s t) : sameTransmitter s t := by
  cases h <;> simp [sameTransmitter]

theorem TransmitEffect.keepsReceiver {s t : State} (h : TransmitEffect s t) : sameReceiver s t := by
  cases h <;> simp [sameReceiver, txHaltStep]

theorem TransmitEffect.queue_eq_or_tail {s t : State} (h : TransmitEffect s t) :
    t.queue = s.queue ∨ ∃ ch, s.queue = ch :: t.queue := by
  cases h with
  | take ch queue code rest mode hsending hqueue hrest => exact .inr ⟨ch, hqueue⟩
  | skip ch queue hqueue => exact .inr ⟨ch, hqueue⟩
  | _ => simp [txHaltStep]

/-- Settles O55: the frames of the two agents. -/
theorem agentsKeepToTheirFields : Obligations.AgentsKeepToTheirFields := by
  intro i s t h
  refine ⟨fun hi => (exec_receive i s t hi h).keepsTransmitter, fun hi => ?_⟩
  have heffect := exec_transmit i s t hi h
  exact ⟨heffect.keepsReceiver, heffect.queue_eq_or_tail⟩

/-! ## The states no step leaves (R29, R33, R250) -/

/-- A step of agent RX leaves its path's state alone, but for RX_HALT, which only a path in RUN takes. -/
theorem ReceiveEffect.rxState_eq_or_run {s t : State} (h : ReceiveEffect s t) : t.rxState = s.rxState ∨ s.rxState = .run := by
  cases h with
  | sample v present hrun => exact .inr hrun
  | halt hrun => exact .inr hrun
  | wait => exact .inl rfl

/-- A step of agent TX leaves its path's state alone, unless the path is in service. -/
theorem TransmitEffect.txState_eq_or_service {s t : State} (h : TransmitEffect s t) :
    t.txState = s.txState ∨ s.txState = .idle ∨ s.txState = .draining ∨ s.txState = .sending := by
  cases h with
  | wake hidle => exact .inr (.inl hidle)
  | drain hsending => exact .inr (.inr (.inr hsending))
  | stall hsending => exact .inr (.inr (.inr hsending))
  | resume hdraining => exact .inr (.inr (.inl hdraining))
  | stop hdraining => exact .inr (.inr (.inl hdraining))
  | halt hboundary => exact .inr hboundary
  | _ => simp

/-- But for RESET, a path's state changes only from RUN, or from a state of the transmit path in service. -/
theorem exec_pathStates (i : Instr) (s t : State) (h : exec i s = .next t) (hreset : performsReset i = false) :
    (t.rxState = s.rxState ∨ s.rxState = .run) ∧
    (t.txState = s.txState ∨ s.txState = .idle ∨ s.txState = .draining ∨ s.txState = .sending) := by
  rcases exec_agents i s t h hreset with heffect | heffect | ⟨text, rfl⟩ | ⟨-, rfl⟩
  · exact ⟨heffect.rxState_eq_or_run, .inl heffect.keepsTransmitter.1⟩
  · obtain ⟨-, -, -, -, -, -, -, -, -, hrxState, -⟩ := heffect.keepsReceiver
    exact ⟨.inl hrxState, heffect.txState_eq_or_service⟩
  · simp
  · simp

/-- Settles O50: neither FAULT nor HALTED is a state that a step changes. -/
theorem faultAndHaltLastUntilReset : Obligations.FaultAndHaltLastUntilReset := by
  intro i s t h hreset
  obtain ⟨hrx, htx⟩ := exec_pathStates i s t h hreset
  refine ⟨fun hs => ?_, fun hs => ?_, fun hs => ?_, fun hs => ?_⟩
  · simpa [hs] using hrx
  · simpa [hs] using hrx
  · simpa [hs] using htx
  · simpa [hs] using htx

/-! ## The shutdown request (R41, R45) -/

/-- Settles O53: the request is no field that agent RX, agent TX or HOST writes. -/
theorem shutdownRequestLastsUntilReset : Obligations.ShutdownRequestLastsUntilReset := by
  intro i s t h hreset
  have hcases : t.shutdownReq = s.shutdownReq ∨ ((i = .shutdown ∨ i = .opShutdown) ∧ t.shutdownReq = true) := by
    rcases exec_agents i s t h hreset with heffect | heffect | ⟨text, rfl⟩ | ⟨hi, rfl⟩
    · obtain ⟨-, -, -, -, -, -, -, -, hreq, -⟩ := heffect.keepsTransmitter
      exact .inl hreq
    · obtain ⟨-, -, -, -, -, -, -, -, -, -, -, -, hreq, -⟩ := heffect.keepsReceiver
      exact .inl hreq
    · exact .inl (hostEnqStep_shutdownReq hw text s)
    · exact .inr ⟨hi, shutdownStep_shutdownReq s⟩
  rcases hcases with hsame | ⟨hi, hset⟩
  · exact ⟨fun hs => hsame.trans hs, fun hs ht => by rw [hsame, hs] at ht; cases ht⟩
  · exact ⟨fun _ => hset, fun _ _ => hi⟩

/-! ## The phase (R36, R192) -/

theorem TransmitEffect.phi_eq_or_sample {s t : State} (h : TransmitEffect s t) :
    t.phi = s.phi ∨ ∃ f, t = txAcceptSample hw f s := by
  cases h with
  | accept f => exact .inr ⟨f, rfl⟩
  | _ => simp [txHaltStep]

/-- But for RESET, the phase changes only where TX_SAMPLE takes a sample. -/
theorem exec_phi_eq_or_sample (i : Instr) (s t : State) (h : exec i s = .next t) (hreset : performsReset i = false) :
    t.phi = s.phi ∨ ∃ f, t = txAcceptSample hw f s := by
  rcases exec_agents i s t h hreset with heffect | heffect | ⟨text, rfl⟩ | ⟨-, rfl⟩
  · obtain ⟨-, -, -, hphi, -⟩ := heffect.keepsTransmitter
    exact .inl hphi
  · exact heffect.phi_eq_or_sample
  · exact .inl (hostEnqStep_phi hw text s)
  · exact .inl (shutdownStep_phi s)

/-- Settles O56: where TX_SAMPLE takes a sample, it puts it out. -/
theorem phaseChangesOnlyWithASample : Obligations.PhaseChangesOnlyWithASample := by
  intro i s t h hreset
  obtain hphi | ⟨f, rfl⟩ := exec_phi_eq_or_sample i s t h hreset
  · exact .inl hphi
  · exact .inr ⟨synthSample hw s, txAcceptSample_trace hw f s⟩

/-! ## The trace (R42, R246) -/

/-- The trace has grown by at most two events, with at most one received character among them. -/
def traceGrows (s t : State) : Prop :=
  ∃ new : List Event, t.trace = s.trace ++ new ∧ new.length ≤ 2 ∧ (receivedCharacters new).length ≤ 1

theorem traceGrows_of_eq {s t : State} (h : t.trace = s.trace) : traceGrows s t := ⟨[], by simp [h, receivedCharacters]⟩

theorem traceGrows_of_event {s t : State} {e : Event} (h : t.trace = s.trace ++ [e]) : traceGrows s t :=
  ⟨[e], h, by simp, List.length_filterMap_le _ _⟩

theorem stopBit_trace_cases (c : Config.Cfg) (b : Bool) (s : State) :
    (stopBit c b s).trace = s.trace ∨ ∃ e, (stopBit c b s).trace = s.trace ++ [e] := by
  rcases stopBit_cases c b s with ⟨-, h⟩ | ⟨-, h⟩ <;> rw [h]
  · rcases decodeCharacter_cases c s.rxWord s with ⟨-, h⟩ | ⟨-, h⟩ | ⟨-, -, h⟩ <;> rw [h]
    · exact .inl rfl
    · exact .inl rfl
    · exact .inr ⟨_, rfl⟩
  · exact .inr ⟨_, rfl⟩

/-- DEMOD adds no event but that of the stop bit: a received character or a framing error. -/
theorem demod_trace_cases (c : Config.Cfg) (nrz : F64) (s : State) :
    (demod c nrz s).trace = s.trace ∨ ∃ e, (demod c nrz s).trace = s.trace ++ [e] := by
  rcases demod_cases c nrz s with ⟨-, h⟩ | ⟨-, -, h⟩ | ⟨-, -, h⟩ <;> rw [h]
  · exact .inl rfl
  · exact .inl (awaitStep_trace c nrz s)
  · rcases framingStep_cases c nrz s with ⟨-, h⟩ | ⟨-, -, h⟩ | ⟨-, -, h⟩ <;> rw [h]
    · exact .inl rfl
    · exact .inl rfl
    · exact stopBit_trace_cases c (isMark nrz) { s with rxTimer := Config.samplesPerBit }

theorem rxSampleStep_trace_cases (c : Config.Cfg) (v : Sample) (s : State) :
    (rxSampleStep c v s).trace = s.trace ∨ ∃ e, (rxSampleStep c v s).trace = s.trace ++ [e] := by
  simpa [rxSampleStep] using
    demod_trace_cases c (detect c (sampleValue v) (coordTick s)).2 (detect c (sampleValue v) (coordTick s)).1

theorem ReceiveEffect.traceGrows {s t : State} (h : ReceiveEffect s t) : traceGrows s t := by
  cases h with
  | sample v present hrun =>
    obtain h | ⟨e, h⟩ := rxSampleStep_trace_cases hw v { s with capSample := present }
    · exact traceGrows_of_eq h
    · exact traceGrows_of_event h
  | halt hrun => exact traceGrows_of_eq rfl
  | wait => exact traceGrows_of_eq rfl

/-- LEAVE_SERVICE adds the stop notification of a path that was sending. -/
theorem leaveService_trace_cases (final : TxState) (s : State) :
    (leaveService hw final s).trace = s.trace ∨
      (leaveService hw final s).trace = s.trace ++ [.sendingChanged false] := by
  cases hsending : s.sending with
  | false => exact .inl (by rw [leaveService_of_not_sending hw final s hsending])
  | true => exact .inr (by rw [leaveService_of_sending final s hsending])

theorem TransmitEffect.traceGrows {s t : State} (h : TransmitEffect s t) : traceGrows s t := by
  cases h with
  | wake => exact traceGrows_of_event (txWakeStep_trace s)
  | skip ch queue => exact traceGrows_of_event (emit_trace (.skipped ch) { s with queue := queue })
  | accept f => exact traceGrows_of_event (txAcceptSample_trace hw f s)
  | stop => exact traceGrows_of_event (by rw [txStopStep, stopSending_hw])
  | halt =>
    obtain h | h := leaveService_trace_cases .halted s
    · exact traceGrows_of_eq h
    · exact traceGrows_of_event h
  | stall =>
    obtain h | h := leaveService_trace_cases .fault (emit (.error causeStall) { s with playCause := causeStall })
    · exact traceGrows_of_event h
    · exact ⟨[.error causeStall, .sendingChanged false], by simp [txFault, h], by simp, by simp [receivedCharacters]⟩
  | _ => exact traceGrows_of_eq rfl

/-- Settles O57: at most two events, of which the stall's are the only pair. -/
theorem traceOnlyGrows : Obligations.TraceOnlyGrows := by
  intro i s t h hreset
  rcases exec_agents i s t h hreset with heffect | heffect | ⟨text, rfl⟩ | ⟨-, rfl⟩
  · exact heffect.traceGrows
  · exact heffect.traceGrows
  · exact traceGrows_of_eq (hostEnqStep_trace hw text s)
  · exact traceGrows_of_eq (shutdownStep_trace s)

end Sys2Proof.Machine
end

section
/-! PROOFS. Every step keeps the invariants of spec/10_state.md R48 (a) to (f) and (h), with R23, R30 and R40: each part of
`sound` by the agent that writes its fields. -/

namespace Sys2Proof.Machine

/-! ## The receive path (R23, R48 (a), (b)) -/

/-- A data bit stays below the bits still to come. -/
theorem dataBit_rxWord_lt (b : Bool) (s : State) (hword : s.rxWord.toNat < 2 ^ s.rxBitidx) :
    (dataBit b s).rxWord.toNat < 2 ^ (s.rxBitidx + 1) := by
  have hlow : s.rxWord.toNat < 2 ^ (s.rxBitidx + 1) := hword.trans (Nat.pow_lt_pow_right (by norm_num) (by omega))
  have hbit : ((1 : Code) <<< s.rxBitidx).toNat < 2 ^ (s.rxBitidx + 1) := by
    have hone : (1 : Code).toNat = 1 := rfl
    rw [BitVec.toNat_shiftLeft, hone, Nat.one_shiftLeft]
    exact (Nat.mod_le _ _).trans_lt (Nat.pow_lt_pow_right (by norm_num) (by omega))
  cases b with
  | false => exact hlow
  | true => exact (BitVec.toNat_or ..).trans_lt (Nat.or_lt_two_pow hlow hbit)

theorem awaitStep_demodulatorSound (c : Config.Cfg) (nrz : F64) (s : State) (h : demodulatorSound s) :
    demodulatorSound (awaitStep c nrz s) := by
  rcases awaitStep_cases c nrz s with ⟨-, heq⟩ | ⟨-, heq⟩ <;> rw [heq]
  · simp [demodulatorSound]
  · exact h

theorem framingStep_demodulatorSound (c : Config.Cfg) (nrz : F64) (s : State) (hphase : s.rxPhase = .framing)
    (h : demodulatorSound s) : demodulatorSound (framingStep c nrz s) := by
  obtain ⟨htimer, hdelay, hidx, hword⟩ := h.2 hphase
  rcases framingStep_cases c nrz s with ⟨hrun, heq⟩ | ⟨-, hdata, heq⟩ | ⟨-, -, heq⟩ <;> rw [heq]
  · refine ⟨by simp [hphase], fun _ => ⟨?_, ?_, hidx, hword⟩⟩ <;> dsimp only <;> omega
  · refine ⟨by simp [hphase], fun _ => ⟨?_, ?_, ?_, dataBit_rxWord_lt _ { s with rxTimer := _ } hword⟩⟩ <;> simp
    omega
  · simp [demodulatorSound]

theorem demod_demodulatorSound (c : Config.Cfg) (nrz : F64) (s : State) (h : demodulatorSound s) :
    demodulatorSound (demod c nrz s) := by
  rcases demod_cases c nrz s with ⟨-, heq⟩ | ⟨-, -, heq⟩ | ⟨-, hphase, heq⟩ <;> rw [heq]
  · simp [demodulatorSound]
  · exact awaitStep_demodulatorSound c nrz s h
  · exact framingStep_demodulatorSound c nrz s hphase h

theorem filterStep_filterSound (k : Config.Coeffs) (f : Filter) (v : F64) (h : filterSound k f) :
    filterSound k (filterStep k f v).1 := by
  obtain ⟨hx, hy⟩ := h
  simp [filterSound, filterStep, hx, hy]

theorem coordTick_guardSound (s : State) (h : guardSound s) : guardSound (coordTick s) := by
  rcases coordTick_cases s with ⟨-, heq⟩ | ⟨harmed, hcount, heq⟩ | ⟨-, -, heq⟩ <;> rw [heq]
  · exact h
  · obtain ⟨-, hmax⟩ := h.2 harmed
    exact ⟨by simp [harmed], fun _ => ⟨by dsimp only; omega, by dsimp only; omega⟩⟩
  · simp [guardSound]

/-- An expiring guard ends a suppression, but no guard is armed while sending. -/
theorem coordTick_turnTakingSound (s : State) (h : turnTakingSound s) : turnTakingSound (coordTick s) := by
  rcases coordTick_cases s with ⟨-, heq⟩ | ⟨-, -, heq⟩ | ⟨harmed, -, heq⟩ <;> rw [heq]
  · exact h
  · exact h
  · have hidle : s.sending ≠ true := fun hsending => by simp [h.2 hsending] at harmed
    exact ⟨fun hsending => absurd hsending hidle, fun _ => rfl⟩

theorem rxSampleStep_suppress (c : Config.Cfg) (v : Sample) (s : State) :
    (rxSampleStep c v s).suppress = (coordTick s).suppress := by simp [rxSampleStep]

theorem rxSampleStep_guardArmed (c : Config.Cfg) (v : Sample) (s : State) :
    (rxSampleStep c v s).guardArmed = (coordTick s).guardArmed := by simp [rxSampleStep]

theorem rxSampleStep_guardCount (c : Config.Cfg) (v : Sample) (s : State) :
    (rxSampleStep c v s).guardCount = (coordTick s).guardCount := by simp [rxSampleStep]

theorem rxSampleStep_demodulatorSound (v : Sample) (s : State) (h : demodulatorSound s) :
    demodulatorSound (rxSampleStep hw v s) := by
  have hseen : demodulatorSound (detect hw (sampleValue v) (coordTick s)).1 := by
    simpa [demodulatorSound] using h
  simpa [rxSampleStep, demodulatorSound] using
    demod_demodulatorSound hw (detect hw (sampleValue v) (coordTick s)).2 _ hseen

theorem rxSampleStep_guardSound (v : Sample) (s : State) (h : guardSound s) : guardSound (rxSampleStep hw v s) := by
  simpa [guardSound, rxSampleStep_guardArmed, rxSampleStep_guardCount] using coordTick_guardSound s h

theorem rxSampleStep_turnTakingSound (v : Sample) (s : State) (h : turnTakingSound s) :
    turnTakingSound (rxSampleStep hw v s) := by
  simpa [turnTakingSound, rxSampleStep_guardArmed, rxSampleStep_suppress] using coordTick_turnTakingSound s h

theorem detect_detectorSound (v : F64) (s : State) (h : detectorSound s) : detectorSound (detect hw v s).1 := by
  obtain ⟨hbm, hbs, hlm, hls, hpos⟩ := h
  exact ⟨filterStep_filterSound hw.design.bpfMark s.bpfMark v hbm,
    filterStep_filterSound hw.design.bpfSpace s.bpfSpace v hbs,
    filterStep_filterSound hw.design.lpfMark s.lpfMark _ hlm,
    filterStep_filterSound hw.design.lpfSpace s.lpfSpace _ hls, hpos⟩

theorem rxSampleStep_detectorSound (v : Sample) (s : State) (h : detectorSound s) :
    detectorSound (rxSampleStep hw v s) := by
  have htick : detectorSound (coordTick s) := by simpa [detectorSound] using h
  obtain ⟨hbm, hbs, hlm, hls, -⟩ := detect_detectorSound (sampleValue v) (coordTick s) htick
  simp only [detectorSound, rxSampleStep, advanceBlock_bpfMark, advanceBlock_bpfSpace, advanceBlock_lpfMark,
    advanceBlock_lpfSpace, advanceBlock_rxBlockPos, demod_bpfMark, demod_bpfSpace, demod_lpfMark, demod_lpfSpace]
  exact ⟨hbm, hbs, hlm, hls, Nat.mod_lt _ (by simp)⟩

theorem ReceiveEffect.keeps_sound {s t : State} (h : ReceiveEffect s t) (hs : sound s) : sound t := by
  obtain ⟨hdemod, hguard, hturn, htransmit, hdetect, hcause⟩ := hs
  cases h with
  | sample v present hrun =>
    refine ⟨rxSampleStep_demodulatorSound v _ hdemod, rxSampleStep_guardSound v _ hguard,
      rxSampleStep_turnTakingSound v _ hturn, ?_, rxSampleStep_detectorSound v _ hdetect, ?_⟩
    · simpa [transmitterSound] using htransmit
    · simpa [causesSound] using hcause
  | halt hrun =>
    obtain ⟨hfault, hcause⟩ := hcause
    have hnone : s.capCause ≠ causeCapture := fun h => by simp [hfault.2 h] at hrun
    exact ⟨hdemod, hguard, hturn, htransmit, hdetect, by simpa using hnone, hcause⟩
  | wait => exact ⟨hdemod, hguard, hturn, htransmit, hdetect, hcause⟩

end Sys2Proof.Machine
end

section
/-! PROOFS. The transmit path, the host and RESET keep the invariants of spec/10_state.md R48 (c) to (f) and (h), with R40;
with the receive path, so does every instruction and every step. -/

namespace Sys2Proof.Machine

/-! ## Leaving service -/

theorem leaveService_sending (final : TxState) (s : State) : (leaveService hw final s).sending = false := by
  cases hsending : s.sending with
  | false => rw [leaveService_of_not_sending hw final s hsending, hsending]
  | true => rw [leaveService_of_sending final s hsending]

theorem leaveService_guardSound (final : TxState) (s : State) (h : guardSound s) :
    guardSound (leaveService hw final s) := by
  cases hsending : s.sending with
  | false =>
    rw [leaveService_of_not_sending hw final s hsending]
    exact h
  | true => simp [leaveService_of_sending final s hsending, guardSound]

theorem leaveService_turnTakingSound (final : TxState) (s : State) : turnTakingSound (leaveService hw final s) := by
  simp [turnTakingSound, leaveService_sending]

theorem leaveService_txFrame (c : Config.Cfg) (final : TxState) (s : State) : (leaveService c final s).txFrame = none := by
  unfold leaveService
  split <;> simp

theorem leaveService_txPending (c : Config.Cfg) (final : TxState) (s : State) : (leaveService c final s).txPending = [] := by
  unfold leaveService
  split <;> simp

theorem leaveService_transmitterSound (final : TxState) (s : State) (hfinal : final = .fault ∨ final = .halted) :
    transmitterSound (leaveService hw final s) := by
  rcases hfinal with rfl | rfl <;>
    simp [transmitterSound, leaveService_sending, leaveService_txFrame, leaveService_txPending]

/-! ## Agent TX -/

theorem TransmitEffect.keeps_guardSound {s t : State} (h : TransmitEffect s t) (hs : guardSound s) : guardSound t := by
  cases h with
  | wake => simp [guardSound]
  | stall => exact leaveService_guardSound .fault _ hs
  | stop => simp [guardSound, txStopStep, stopSending_hw]
  | halt => exact leaveService_guardSound .halted s hs
  | accept f => simpa [guardSound] using hs
  | _ => exact hs

theorem TransmitEffect.keeps_turnTakingSound {s t : State} (h : TransmitEffect s t) (hs : turnTakingSound s) :
    turnTakingSound t := by
  cases h with
  | wake => simp [turnTakingSound]
  | stall => exact leaveService_turnTakingSound .fault _
  | stop => simp [turnTakingSound, txStopStep, stopSending_hw]
  | halt => exact leaveService_turnTakingSound .halted s
  | accept f => simpa [turnTakingSound] using hs
  | _ => exact hs

/-- A frame's count of samples stays within its cell. -/
theorem nextFrame_smp_lt (f g : TxFrame) (hf : f.smp < Config.samplesPerBit) (hg : g ∈ nextFrame f) :
    g.smp < Config.samplesPerBit := by
  unfold nextFrame at hg
  split at hg
  · split at hg
    · obtain rfl := Option.some.inj hg
      simp
    · cases hg
  · obtain rfl := Option.some.inj hg
    dsimp only
    omega

theorem TransmitEffect.keeps_transmitterSound {s t : State} (h : TransmitEffect s t) (hs : transmitterSound s) :
    transmitterSound t := by
  obtain ⟨hbusy, hidle, hservice, hlength, hcell⟩ := hs
  cases h with
  | wake => exact ⟨fun _ => rfl, by simp, by simp, hlength, hcell⟩
  | load code rest hsending hpending =>
    refine ⟨fun _ => hsending, hidle, hservice, ?_, by simp⟩
    rw [hpending, List.length_cons] at hlength
    dsimp only
    omega
  | take ch queue code rest mode hsending hqueue hrest =>
    refine ⟨fun _ => hsending, hidle, hservice, ?_, by simp⟩
    dsimp only
    omega
  | skip ch queue => exact ⟨hbusy, hidle, hservice, hlength, hcell⟩
  | drain hsending hframe hpending =>
    exact ⟨by simp [hframe, hpending], by simp, fun _ => hservice (.inl hsending), hlength, hcell⟩
  | accept f hsending hframe =>
    refine ⟨fun _ => hsending, by simp [hsending], fun _ => hservice (.inl hsending), by simpa using hlength, fun g hg => ?_⟩
    exact nextFrame_smp_lt f g (hcell f hframe) (by simpa using hg)
  | stall => exact leaveService_transmitterSound .fault _ (.inl rfl)
  | resume hdraining => exact ⟨fun _ => rfl, by simp, fun _ => hservice (.inr hdraining), hlength, hcell⟩
  | stop hdraining =>
    have hfree : s.txFrame = none ∧ s.txPending = [] := by simpa [hdraining] using hbusy
    simp [transmitterSound, txStopStep, stopSending_hw, hfree]
  | halt => exact leaveService_transmitterSound .halted s (.inr rfl)
  | wait => exact ⟨hbusy, hidle, hservice, hlength, hcell⟩

/-- Only the stall writes a cause: every other step of agent TX keeps it, and does not move the path into or out of FAULT. -/
theorem TransmitEffect.causes_eq_or_stall {s t : State} (h : TransmitEffect s t) :
    (t.playCause = s.playCause ∧ (t.txState = .fault ↔ s.txState = .fault)) ∨
      (s.txState = .sending ∧ t = txFault hw causeStall s) := by
  cases h with
  | stall hsending => exact .inr ⟨hsending, rfl⟩
  | wake hidle => simp [hidle]
  | drain hsending => simp [hsending]
  | resume hdraining => simp [hdraining]
  | stop hdraining => simp [hdraining]
  | halt hboundary => rcases hboundary with hstate | hstate | hstate <;> simp [txHaltStep, hstate]
  | _ => simp

theorem TransmitEffect.keeps_causesSound {s t : State} (h : TransmitEffect s t) (hs : causesSound s) : causesSound t := by
  obtain ⟨-, -, -, -, -, -, -, -, -, hrxState, -, hcapCause, -⟩ := h.keepsReceiver
  obtain ⟨hcap, hcapRange, hplay, hplayRange⟩ := hs
  rw [← hrxState, ← hcapCause] at hcap
  rw [← hcapCause] at hcapRange
  obtain ⟨hcause, hstate⟩ | ⟨-, rfl⟩ := h.causes_eq_or_stall
  · exact ⟨hcap, hcapRange, by rw [hstate, hcause, hplay], by rwa [hcause]⟩
  · exact ⟨hcap, hcapRange, by simp [txFault, causeStall, causeNone], by simp [txFault, causeStall, causeCapture]⟩

theorem TransmitEffect.keeps_sound {s t : State} (h : TransmitEffect s t) (hs : sound s) : sound t := by
  obtain ⟨hdemod, hguard, hturn, htransmit, hdetect, hcause⟩ := hs
  obtain ⟨hbm, hbs, hlm, hls, hphase, htimer, hidx, hword, -, -, hpos, -⟩ := h.keepsReceiver
  refine ⟨?_, h.keeps_guardSound hguard, h.keeps_turnTakingSound hturn, h.keeps_transmitterSound htransmit, ?_,
    h.keeps_causesSound hcause⟩
  · rwa [demodulatorSound, hphase, htimer, hidx, hword]
  · rwa [detectorSound, hbm, hbs, hlm, hls, hpos]

/-! ## HOST, the platform and RESET -/

theorem hostEnqStep_sound (text : List Char8) (s : State) (hs : sound s) : sound (hostEnqStep hw text s) := by
  rw [hostEnqStep_hw]
  exact hs

/-- R22's reset column is sound, whatever the schedule and the ports. -/
theorem resetFields_sound (s : State) : sound (resetFields s) := by
  simp [sound, demodulatorSound, guardSound, turnTakingSound, transmitterSound, detectorSound, filterSound, causesSound,
    resetFields, State.reset, Filter.reset, hw, hwDesign, hwParams, causeNone, causeCapture]

theorem raiseFault_capture_sound (s : State) (hs : sound s) : sound (raiseFault hw causeCapture s) := by
  obtain ⟨hdemod, hguard, hturn, htransmit, hdetect, -, -, hplay⟩ := hs
  rw [raiseFault_capture]
  exact ⟨hdemod, hguard, hturn, htransmit, hdetect, by simp, .inr rfl, hplay⟩

theorem raiseFault_playback_sound (s : State) (hs : sound s) : sound (raiseFault hw causePlayback s) := by
  obtain ⟨hdemod, hguard, hturn, -, hdetect, hcap, hcapRange, -⟩ := hs
  rw [raiseFault_transmit hw causePlayback s (by decide)]
  refine ⟨by simpa [demodulatorSound] using hdemod, leaveService_guardSound .fault _ hguard,
    leaveService_turnTakingSound .fault _, leaveService_transmitterSound .fault _ (.inl rfl),
    by simpa [detectorSound] using hdetect, by simpa using hcap, by simpa using hcapRange, ?_, ?_⟩
  · simp [txFault, causePlayback, causeNone]
  · simp [txFault, causePlayback, causeCapture]

theorem resetBlock_sound (capOk playOk : Bool) (s : State) : sound (resetBlock hw capOk playOk s) := by
  have hcapture : sound (if capOk then resetFields s else raiseFault hw causeCapture (resetFields s)) := by
    split
    · exact resetFields_sound s
    · exact raiseFault_capture_sound _ (resetFields_sound s)
  unfold resetBlock
  dsimp only
  cases playOk with
  | true => exact hcapture
  | false => exact raiseFault_playback_sound _ hcapture

/-! ## Every instruction and every step -/

theorem exec_keeps_sound (i : Instr) (s t : State) (hs : sound s) (h : exec i s = .next t) : sound t := by
  cases hreset : performsReset i with
  | true =>
    obtain ⟨capOk, playOk, rfl⟩ := exec_reset i s t hreset h
    exact resetBlock_sound capOk playOk s
  | false =>
    rcases exec_agents i s t h hreset with heffect | heffect | ⟨text, rfl⟩ | ⟨-, rfl⟩
    · exact heffect.keeps_sound hs
    · exact heffect.keeps_sound hs
    · exact hostEnqStep_sound text s hs
    · exact hs

/-- Settles O58: a step waits, takes an input of the capture device, or is an instruction; the schedule, the held byte and
the sample present are no part of the invariant. -/
theorem everyStepKeepsTheInvariants : Obligations.EveryStepKeepsTheInvariants := by
  intro s t hs h
  rcases step_next_cases s t h with ⟨-, rfl⟩ | ⟨b, rest, -, -, rfl⟩ | ⟨v, rest, -, rfl⟩ | ⟨i, rest, held, hexec⟩
  · exact hs
  · exact hs
  · exact hs
  · exact exec_keeps_sound i { s with stim := rest, capHeld := held } t hs hexec

/-! ## The causes (R40) -/

theorem ReceiveEffect.capCause_eq {s t : State} (h : ReceiveEffect s t) : t.capCause = s.capCause := by
  cases h <;> simp

/-- But for RESET, no cause is written but that of a stall, which comes to a path in SENDING. -/
theorem exec_causes (i : Instr) (s t : State) (h : exec i s = .next t) (hreset : performsReset i = false) :
    t.capCause = s.capCause ∧
      (t.playCause = s.playCause ∨ (s.txState = .sending ∧ t = txFault hw causeStall s)) := by
  rcases exec_agents i s t h hreset with heffect | heffect | ⟨text, rfl⟩ | ⟨-, rfl⟩
  · obtain ⟨-, -, -, -, -, -, -, hplay, -⟩ := heffect.keepsTransmitter
    exact ⟨heffect.capCause_eq, .inl hplay⟩
  · obtain ⟨-, -, -, -, -, -, -, -, -, -, -, hcap, -⟩ := heffect.keepsReceiver
    exact ⟨hcap, heffect.causes_eq_or_stall.imp_left And.left⟩
  · simp
  · simp

/-- Settles O51: the invariant gives the causes of the states in FAULT; a path in SENDING is not one, so that a stall
finds no cause written. -/
theorem causeCodesLastUntilReset : Obligations.CauseCodesLastUntilReset := by
  intro i s t hs h
  obtain ⟨-, -, -, -, -, hcap, hcapRange, hplay, -⟩ := exec_keeps_sound i s t hs h
  obtain ⟨-, -, -, -, -, -, -, hplayBefore, -⟩ := hs
  refine ⟨?_, hplay, fun hreset => ?_⟩
  · rcases hcapRange with hcause | hcause <;> rw [hcap, hcause] <;> decide
  · obtain ⟨hcapSame, hsame | ⟨hsending, rfl⟩⟩ := exec_causes i s t h hreset
    · exact ⟨hcapSame, fun _ => hsame, .inl hsame⟩
    · refine ⟨hcapSame, fun hne => ?_, .inr (by simp [txFault, causeStall])⟩
      rw [hplayBefore.2 hne] at hsending
      cases hsending

/-! ## The reset state -/

/-- Settles O59: the reset state is what the reset values are of itself. -/
theorem resetStateHasTheInvariants : Obligations.ResetStateHasTheInvariants :=
  ⟨resetFields_sound State.reset, by decide +kernel, runReset_hw true true State.reset⟩

end Sys2Proof.Machine
end

section
/-! PROOFS. Every step keeps the phase in `[0, 2 pi)` (spec/10_state.md R48 (g), spec/43_modulator.md R191): from there one
increment stays below 8.0, and what is left of that after one subtraction of 2 pi is at most 2.0. -/

namespace Sys2Proof.F64

/-! ## Comparisons and sums of finite values -/

theorem ge_iff_of_units (a b : F64) (x y : Int) (ha : units? a = some x) (hb : units? b = some y) :
    a.ge b = true ↔ y ≤ x := by
  simp [ge_iff, orderKey_of_units a x ha, orderKey_of_units b y hb]

theorem lt_iff_of_units (a b : F64) (x y : Int) (ha : units? a = some x) (hb : units? b = some y) :
    a.lt b = true ↔ x < y := by
  simp [lt_iff, orderKey_of_units a x ha, orderKey_of_units b y hb]

/-- A sum between zero and a finite field's value rounds to a value between them. -/
theorem units?_add_le (a b : F64) (x y : Int) (k : Nat) (ha : units? a = some x) (hb : units? b = some y)
    (hk : k < fieldLimit) (hnonneg : 0 ≤ x + y) (hle : x + y ≤ fieldMag k) :
    ∃ m : Nat, m ≤ fieldMag k ∧ units? (a.add b) = some (m : Int) := by
  by_cases hsum : x + y = 0
  · exact ⟨0, Nat.zero_le _, units?_add_of_eq_zero a b x y ha hb hsum⟩
  · obtain ⟨m, hm, hunits⟩ := units?_roundTo_le false (x + y).natAbs 0 k hk (by omega)
    refine ⟨m, hm, ?_⟩
    rw [add_of_ne_zero a b x y ha hb hsum, decide_eq_false (by omega), hunits]
    simp [signed]

/-- A difference between zero and a finite field's value rounds to a value between them. -/
theorem units?_sub_le (a b : F64) (x y : Int) (k : Nat) (ha : units? a = some x) (hb : units? b = some y)
    (hk : k < fieldLimit) (hnonneg : y ≤ x) (hle : x ≤ y + fieldMag k) :
    ∃ m : Nat, m ≤ fieldMag k ∧ units? (a.sub b) = some (m : Int) :=
  units?_add_le a b.neg x (-y) k ha (by rw [units?_neg, hb]; rfl) hk (by omega) (by omega)

end Sys2Proof.F64

namespace Sys2Proof.Machine

open F64 (units? fieldMag)

/-! ## The phase range by fields -/

/-- The field of 2 pi. -/
def twoPiField : Nat := 1025 * 2 ^ 52 + 0x921fb54442d18

/-- The field of 1.5, above both phase increments. -/
def maxIncrementField : Nat := 1023 * 2 ^ 52 + 2 ^ 51

theorem units?_twoPi : units? Config.twoPi = some (fieldMag twoPiField : Int) := by
  rw [Config.twoPi, units?, F64.magOf_eq_fieldMag]
  rfl

theorem phaseInRange_iff (v : F64) :
    phaseInRange v ↔ ∃ u, units? v = some u ∧ 0 ≤ u ∧ u < fieldMag twoPiField := by
  have hzero : units? F64.zero = some 0 := rfl
  constructor
  · intro h
    obtain ⟨u, hu⟩ := units?_of_phaseInRange v h
    exact ⟨u, hu, (F64.ge_iff_of_units v _ u 0 hu hzero).1 h.1, (F64.lt_iff_of_units v _ u _ hu units?_twoPi).1 h.2⟩
  · rintro ⟨u, hu, hnonneg, hlt⟩
    exact ⟨(F64.ge_iff_of_units v _ u 0 hu hzero).2 hnonneg, (F64.lt_iff_of_units v _ u _ hu units?_twoPi).2 hlt⟩

/-- A tone's phase increment is below 1.5. -/
theorem units?_toneIncrement (mark : Bool) :
    ∃ k ≤ maxIncrementField, units? (toneIncrement hw mark) = some (fieldMag k : Int) := by
  have hhex (frac : BitVec 52) (hfrac : frac.toNat ≤ 2 ^ 51) :
      ∃ k ≤ maxIncrementField, units? (F64.hex false frac 0) = some (fieldMag k : Int) := by
    refine ⟨1023 * 2 ^ 52 + frac.toNat, by unfold maxIncrementField; omega, ?_⟩
    rw [F64.hex, F64.units?_ofField _ _ (by unfold F64.fieldLimit; omega)]
    rfl
  cases mark with
  | true => exact hhex 0x197c987c952c4 (by decide)
  | false => exact hhex 0x69e9565708efc (by decide)

/-- The field of 8.0. -/
def eightField : Nat := 1026 * 2 ^ 52

/-- The field of 2.0. -/
def twoField : Nat := 1024 * 2 ^ 52

/-- 2 pi and an increment are at most 8.0, which is at most 2 pi and 2.0; and 2.0 is below 2 pi. -/
theorem twoPi_bounds :
    fieldMag twoPiField + fieldMag maxIncrementField ≤ fieldMag eightField ∧
      fieldMag eightField ≤ fieldMag twoPiField + fieldMag twoField ∧ fieldMag twoField < fieldMag twoPiField := by
  have hscaled (k j m : Nat) (hk : k = j * 2 ^ 52 + m) (hlo : 2 ^ 52 ≤ m) (hhi : m ≤ 2 ^ 53) : fieldMag k = m * 2 ^ j :=
    hk ▸ F64.fieldMag_scaled j m (.inr hlo) hhi
  have htwoPi := hscaled twoPiField 1024 (2 ^ 52 + 0x921fb54442d18) (by decide) (by norm_num) (by norm_num)
  have hincrement := hscaled maxIncrementField 1022 (2 ^ 52 + 2 ^ 51) (by decide) (by norm_num) (by norm_num)
  have height := hscaled eightField 1025 (2 ^ 52) (by decide) (by norm_num) (by norm_num)
  have htwo := hscaled twoField 1023 (2 ^ 52) (by decide) (by norm_num) (by norm_num)
  rw [htwoPi, hincrement, height, htwo, pow_add 2 1022 2, pow_add 2 1022 3, pow_add 2 1022 1]
  have hunit : 0 < 2 ^ 1022 := by positivity
  generalize 2 ^ 1022 = unit at hunit ⊢
  omega

/-! ## The next phase -/

/-- SYNTH keeps the phase in its range (R191). -/
theorem nextPhase_inRange (mark : Bool) (phi : F64) (h : phaseInRange phi) : phaseInRange (nextPhase hw mark phi) := by
  obtain ⟨hsumBound, hdiffBound, htwo⟩ := twoPi_bounds
  obtain ⟨u, hu, hnonneg, hlt⟩ := (phaseInRange_iff phi).1 h
  obtain ⟨k, hk, hincrement⟩ := units?_toneIncrement mark
  have hmono : fieldMag k ≤ fieldMag maxIncrementField := F64.fieldMag_strictMono.monotone hk
  obtain ⟨m, hm, hsum⟩ := F64.units?_add_le phi (toneIncrement hw mark) u _ eightField hu hincrement
    (by norm_num [eightField, F64.fieldLimit]) (by omega) (by omega)
  have hwrap := F64.ge_iff_of_units _ _ _ _ hsum units?_twoPi
  rw [phaseInRange_iff]
  unfold nextPhase
  dsimp only
  split
  · rename_i hge
    obtain ⟨n, hn, hdiff⟩ := F64.units?_sub_le _ _ _ _ twoField hsum units?_twoPi
      (by norm_num [twoField, F64.fieldLimit]) (hwrap.1 hge) (by omega)
    exact ⟨n, hdiff, by omega, by omega⟩
  · rename_i hge
    exact ⟨m, hsum, by omega, not_le.1 fun hle => hge (hwrap.2 hle)⟩

/-- RESET leaves the phase at zero. -/
theorem resetBlock_phi (capOk playOk : Bool) (s : State) : (resetBlock hw capOk playOk s).phi = F64.zero := by
  cases capOk <;> cases playOk <;> simp [resetBlock, raiseFault, resetFields, State.reset, causeCapture, causePlayback]

theorem exec_phaseInRange (i : Instr) (s t : State) (hs : phaseInRange s.phi) (h : exec i s = .next t) :
    phaseInRange t.phi := by
  cases hreset : performsReset i with
  | true =>
    obtain ⟨capOk, playOk, rfl⟩ := exec_reset i s t hreset h
    rw [resetBlock_phi]
    exact (phaseInRange_iff F64.zero).2 ⟨0, rfl, le_rfl, by obtain ⟨-, -, htwo⟩ := twoPi_bounds; omega⟩
  | false =>
    obtain hphi | ⟨f, rfl⟩ := exec_phi_eq_or_sample i s t h hreset
    · rwa [hphi]
    · rw [txAcceptSample_phi]
      exact nextPhase_inRange _ _ hs

/-- Settles O60: the phase changes only at RESET, to zero, and where a sample is taken, to the next phase. -/
theorem everyStepKeepsThePhaseInRange : Obligations.EveryStepKeepsThePhaseInRange := by
  intro s t hs h
  rcases step_next_cases s t h with ⟨-, rfl⟩ | ⟨b, rest, -, -, rfl⟩ | ⟨v, rest, -, rfl⟩ | ⟨i, rest, held, hexec⟩
  · exact hs
  · exact hs
  · exact hs
  · exact exec_phaseInRange i { s with stim := rest, capHeld := held } t hs hexec

end Sys2Proof.Machine
end

section
/-! PROOFS. Bytes of the capture stream and the model's own fields at RESET (spec/20_memory.md R62, R63,
spec/70_reset_and_hazards.md R270). -/

namespace Sys2Proof.Machine

open Config (Cfg)

/-! ## The capture stream -/

/-- Two bytes as a big-endian number. -/
theorem sampleOfBytes_toNat (b0 b1 : Byte) : (sampleOfBytes b0 b1).toNat = 256 * b0.toNat + b1.toNat := by
  rw [sampleOfBytes, BitVec.toNat_append, Nat.shiftLeft_eq, Nat.mul_comm, ← Nat.two_pow_add_eq_or_of_lt b1.isLt]

/-- A byte without a partner is held. -/
theorem step_byte_of_unpaired (s : State) (b : Byte) (rest : List Stimulus) (hs : s.stim = .byte b :: rest)
    (hheld : s.capHeld = none) : step s = .next { s with stim := rest, capHeld := some b } := by
  simp only [step, fetch_byte s b rest hs, fetchByte, hheld, carryOut]

/-- A byte that meets a held one completes a sample, which is carried out at once. -/
theorem step_byte_of_held (s : State) (b0 b1 : Byte) (rest : List Stimulus) (hs : s.stim = .byte b1 :: rest)
    (hheld : s.capHeld = some b0) :
    step s = exec (.sample (sampleOfBytes b0 b1)) { s with stim := rest, capHeld := none } := by
  simp only [step, fetch_byte s b1 rest hs, fetchByte, hheld, carryOut]

/-- Settles O2: the first byte is held, and the second completes it. -/
theorem byteStreamFormsBigEndianSamples : Obligations.ByteStreamFormsBigEndianSamples := by
  intro s b0 b1 rest hs hheld
  exact ⟨_, step_byte_of_unpaired s b0 (.byte b1 :: rest) hs hheld, rfl, sampleOfBytes b0 b1, sampleOfBytes_toNat b0 b1,
    step_byte_of_held _ b0 b1 rest rfl rfl⟩

/-! ## RESET -/

/-- The model's own fields are the same: the schedule, the two output ports, the held byte and the offered sample (log
entries 5, 6, 9 and 10). -/
abbrev sameModelFields (s t : State) : Prop :=
  t.stim = s.stim ∧ t.hostAccept = s.hostAccept ∧ t.playSample = s.playSample ∧ t.capHeld = s.capHeld ∧
  t.capSample = s.capSample

/-- The fault entry of R243 writes none of the model's own fields. -/
theorem raiseFault_sameModelFields (c : Cfg) (cause : Cause) (s : State) : sameModelFields s (raiseFault c cause s) := by
  by_cases hcause : cause = causeCapture
  · rw [hcause, raiseFault_capture]
    exact ⟨rfl, rfl, rfl, rfl, rfl⟩
  · rw [raiseFault_transmit c cause s hcause]
    simp [sameModelFields]

/-- RESET has in the model's own fields what its reset values have: the faults that follow them (R249(a)) leave those
alone. -/
theorem resetBlock_sameModelFields (c : Cfg) (capOk playOk : Bool) (s : State) :
    sameModelFields (resetFields s) (resetBlock c capOk playOk s) := by
  have hcapture : sameModelFields (resetFields s)
      (if capOk then resetFields s else raiseFault c causeCapture (resetFields s)) := by
    cases capOk with
    | true => exact ⟨rfl, rfl, rfl, rfl, rfl⟩
    | false => exact raiseFault_sameModelFields c causeCapture (resetFields s)
  cases playOk with
  | true => exact hcapture
  | false =>
    obtain ⟨hstim, haccept, hplay, hheld, hpresent⟩ := hcapture
    obtain ⟨hstim', haccept', hplay', hheld', hpresent'⟩ := raiseFault_sameModelFields c causePlayback _
    exact ⟨hstim'.trans hstim, haccept'.trans haccept, hplay'.trans hplay, hheld'.trans hheld, hpresent'.trans hpresent⟩

/-- Settles O49: what `resetFields` leaves in the model's own fields. -/
theorem resetKeepsTheScheduleAndThePorts : Obligations.ResetKeepsTheScheduleAndThePorts := by
  intro s t capOk playOk h
  obtain ⟨capOk, playOk, rfl⟩ : ∃ capOk playOk, t = resetBlock hw capOk playOk s :=
    h.elim (exec_reset _ s t rfl) (exec_reset _ s t rfl)
  exact resetBlock_sameModelFields hw capOk playOk s

end Sys2Proof.Machine
end

section
/-! PROOFS. Every transmission ends (spec/20_memory.md R72, spec/30_encoding.md R97, spec/70_reset_and_hazards.md R283):
each tick of TXRUN is one TX step, the steps still to come are bounded by `ticksLeft`, and every step lowers that bound
until TX_STOP. -/

namespace Sys2Proof.Machine

/-! ## The ticks a transmission has left -/

/-- Samples still to be put out before a frame is complete (R81). -/
def frameLeft : Option TxFrame → Nat
  | none => 0
  | some f => Config.frameSamples - (f.cell.val * Config.samplesPerBit + f.smp)

/-- A bound on the TX steps of a transmission under way. In SENDING: the samples of the frame, a TX_LOAD and a frame for
each pending code word and for two of each character, the TX_LOAD that finds the queue empty, and TX_STOP. -/
def ticksLeft (s : State) : Nat :=
  if s.txState = .sending then
    frameLeft s.txFrame + (Config.frameSamples + 1) * (s.txPending.length + 2 * s.queue.length) + 2
  else 1

/-- A transmission is under way that no shutdown request will cut short, and a TX_STOP, not a TX_RESUME, ends its
draining. -/
abbrev transmitting (s : State) : Prop :=
  s.shutdownReq = false ∧ (s.txState = .sending ∨ s.txState = .draining ∧ s.queue = [])

theorem txState_ne_idle_of_transmitting (s : State) (h : transmitting s) : s.txState ≠ .idle := by
  obtain ⟨-, hstate | ⟨hstate, -⟩⟩ := h <;> simp [hstate]

theorem ticksLeft_of_sending (s : State) (h : s.txState = .sending) :
    ticksLeft s = frameLeft s.txFrame + 1240 * (s.txPending.length + 2 * s.queue.length) + 2 := if_pos h

/-- Between two states in SENDING the fixed part cancels. -/
theorem ticksLeft_lt_of_sending (s t : State) (hs : s.txState = .sending) (ht : t.txState = .sending)
    (h : frameLeft t.txFrame + 1240 * (t.txPending.length + 2 * t.queue.length) <
      frameLeft s.txFrame + 1240 * (s.txPending.length + 2 * s.queue.length)) : ticksLeft t < ticksLeft s := by
  rw [ticksLeft_of_sending t ht, ticksLeft_of_sending s hs]
  exact Nat.add_lt_add_right h 2

theorem ticksLeft_of_draining (s : State) (h : s.txState = .draining) : ticksLeft s = 1 := by
  simp [ticksLeft, h]

theorem ticksLeft_pos (s : State) : 0 < ticksLeft s := by
  unfold ticksLeft
  split <;> omega

theorem frameLeft_fresh (code : Code) : frameLeft (some ⟨code, 0, 0⟩) = 1239 := by
  simp [frameLeft]

/-- A taken sample is one of the frame's. -/
theorem frameLeft_nextFrame (f : TxFrame) (h : f.smp < Config.samplesPerBit) :
    frameLeft (nextFrame f) < frameLeft (some f) := by
  have hcell := f.cell.isLt
  simp only [samplesPerBit_eq] at h
  unfold nextFrame
  split
  case isTrue hlast =>
    simp only [samplesPerBit_eq] at hlast
    split <;> simp only [frameLeft, samplesPerBit_eq, frameSamples_eq] <;> omega
  case isFalse =>
    simp only [frameLeft, samplesPerBit_eq, frameSamples_eq]
    omega

/-! ## One tick -/

/-- The tick that runs: TX_LOAD between frames, TX_SAMPLE in a frame, TX_STOP when draining. -/
theorem txChoice_of_transmitting (s : State) (h : transmitting s) :
    (s.txState = .sending ∧ s.txFrame = none ∧ txChoice .accept true s = some .load) ∨
    (∃ f, s.txState = .sending ∧ s.txFrame = some f ∧ txChoice .accept true s = some .sample) ∨
    (s.txState = .draining ∧ s.queue = [] ∧ txChoice .accept true s = some .stop) := by
  obtain ⟨hreq, hstate | ⟨hstate, hqueue⟩⟩ := h
  · cases hframe : s.txFrame with
    | none => exact .inl ⟨hstate, rfl, by simp [txChoice, txOps, txEnabled, txWakeEnabled, txLoadEnabled, hreq, hstate, hframe]⟩
    | some f =>
      refine .inr (.inl ⟨f, hstate, rfl, ?_⟩)
      simp [txChoice, txOps, txEnabled, txWakeEnabled, txLoadEnabled, txSampleEnabled, answersSample, effectiveResp, hstate,
        hframe]
  · refine .inr (.inr ⟨hstate, hqueue, ?_⟩)
    simp [txChoice, txOps, txEnabled, txWakeEnabled, txLoadEnabled, txSampleEnabled, txResumeEnabled, txStopEnabled, hreq,
      hstate, hqueue]

theorem txChoice_of_queued (s : State) (hidle : s.txState = .idle) (hreq : s.shutdownReq = false) (hqueue : s.queue ≠ []) :
    txChoice .accept true s = some .wake := by
  simp [txChoice, txOps, txEnabled, txWakeEnabled, hidle, hreq, hqueue]

/-- A character taken between frames is skipped, or its code words become a frame and at most one pending code. -/
theorem loadFrame_encodeCharacter_ticksLeft (ch : Char8) (queue : List Char8) (s : State) (hsending : s.txState = .sending)
    (hframe : s.txFrame = none) (hpending : s.txPending = []) (hqueue : s.queue = ch :: queue) :
    ticksLeft (loadFrame (encodeCharacter hw ch { s with queue := queue })) < ticksLeft s := by
  refine ticksLeft_lt_of_sending s _ hsending (by simpa using hsending) ?_
  rcases encodeCharacter_cases hw ch { s with queue := queue } with ⟨-, h⟩ | ⟨k, sel, -, -, h⟩ | ⟨k, -, h⟩ <;> rw [h]
  · simp [loadFrame, hpending, hframe, hqueue]
  all_goals
    simp only [loadFrame, frameLeft_fresh, hqueue, List.length_cons, List.length_nil]
    omega

/-- TX_LOAD between frames: a pending code or a character is used up, or the last frame is out and the path drains. -/
theorem txLoadStep_ticksLeft (s : State) (hreq : s.shutdownReq = false) (hsending : s.txState = .sending)
    (hframe : s.txFrame = none) :
    transmitting (txLoadStep hw s) ∧ ticksLeft (txLoadStep hw s) < ticksLeft s := by
  rcases txLoadStep_cases hw s with ⟨hpending, h⟩ | ⟨hpending, hqueue, h⟩ | ⟨ch, queue, hpending, hqueue, h⟩ <;> rw [h]
  · rcases loadFrame_cases s with ⟨hnil, -⟩ | ⟨code, rest, hcons, h⟩
    · exact absurd hnil hpending
    · rw [h]
      refine ⟨⟨hreq, .inl hsending⟩, ticksLeft_lt_of_sending s _ hsending hsending ?_⟩
      simp only [frameLeft_fresh, hcons, List.length_cons]
      omega
  · refine ⟨⟨hreq, .inr ⟨rfl, hqueue⟩⟩, ?_⟩
    rw [ticksLeft_of_draining _ rfl, ticksLeft_of_sending s hsending]
    omega
  · exact ⟨⟨by simpa using hreq, .inl (by simpa using hsending)⟩,
      loadFrame_encodeCharacter_ticksLeft ch queue s hsending hframe hpending hqueue⟩

/-- TX_SAMPLE with an ACCEPT: one sample of the frame is out. -/
theorem txAcceptSample_ticksLeft (f : TxFrame) (s : State) (hreq : s.shutdownReq = false) (hsending : s.txState = .sending)
    (hframe : s.txFrame = some f) (hcell : f.smp < Config.samplesPerBit) :
    transmitting (txAcceptSample hw f s) ∧ ticksLeft (txAcceptSample hw f s) < ticksLeft s := by
  have hleft := frameLeft_nextFrame f hcell
  have hsending' : (txAcceptSample hw f s).txState = .sending := by simpa using hsending
  refine ⟨⟨by simpa using hreq, .inl hsending'⟩, ticksLeft_lt_of_sending s _ hsending hsending' ?_⟩
  rw [hframe, txAcceptSample_txFrame, txAcceptSample_txPending, txAcceptSample_queue]
  exact Nat.add_lt_add_right hleft _

/-! ## TXRUN -/

/-- A transmission that has come to its end: back in IDLE with an empty queue and the guard started (R188, R222). -/
abbrev transmissionEnded (s : State) : Prop :=
  s.txState = .idle ∧ s.queue = [] ∧ s.sending = false ∧ s.guardCount = 4096

theorem txStopStep_ended (s : State) (hqueue : s.queue = []) : transmissionEnded (txStopStep hw s) := by
  simp [transmissionEnded, txStopStep, stopSending_hw, hqueue]

/-- A tick of a transmission under way ends it, or leaves it under way with fewer ticks left. -/
theorem txStep_of_transmitting (s : State) (hs : sound s) (h : transmitting s) :
    ∃ op, txChoice .accept true s = some op ∧
      (transmissionEnded (txStep hw .accept s op) ∨
        transmitting (txStep hw .accept s op) ∧ ticksLeft (txStep hw .accept s op) < ticksLeft s) := by
  obtain ⟨-, -, -, ⟨-, -, -, -, hcell⟩, -, -⟩ := hs
  have hreq : s.shutdownReq = false := h.1
  rcases txChoice_of_transmitting s h with ⟨hsending, hframe, hop⟩ | ⟨f, hsending, hframe, hop⟩ | ⟨-, hqueue, hop⟩
  · exact ⟨.load, hop, .inr (txLoadStep_ticksLeft s hreq hsending hframe)⟩
  · have hsample : txStep hw .accept s .sample = txAcceptSample hw f s := by
      simp [txStep, txSampleStep, hframe, effectiveResp]
    refine ⟨.sample, hop, .inr ?_⟩
    rw [hsample]
    exact txAcceptSample_ticksLeft f s hreq hsending hframe (hcell f hframe)
  · exact ⟨.stop, hop, .inl (txStopStep_ended s hqueue)⟩

/-- One tick of TXRUN. -/
theorem txrunTicks_succ (fuel : Nat) (s : State) (op : TxOp) (h : txChoice .accept true s = some op) :
    txrunTicks false (fuel + 1) s =
      if (txStep hw .accept s op).txState = .idle then txStep hw .accept s op
      else txrunTicks false fuel (txStep hw .accept s op) := by
  simp [txrunTicks, h, txrunTick]

/-- TXRUN brings a transmission under way to its end within the ticks it has left. -/
theorem txrunTicks_ended (fuel : Nat) (s : State) (hs : sound s) (h : transmitting s) (hfuel : ticksLeft s ≤ fuel) :
    transmissionEnded (txrunTicks false fuel s) := by
  induction fuel generalizing s with
  | zero => exact absurd (ticksLeft_pos s) (by omega)
  | succ fuel ih =>
    obtain ⟨op, hop, hnext⟩ := txStep_of_transmitting s hs h
    rw [txrunTicks_succ fuel s op hop]
    rcases hnext with hended | ⟨hunder, hless⟩
    · rwa [if_pos hended.1]
    · rw [if_neg (txState_ne_idle_of_transmitting _ hunder)]
      have hsound := (txStep_effect .accept true s op (txChoice_enabled _ _ _ _ hop)).keeps_sound hs
      exact ih _ hsound hunder (by omega)

/-- The bound of TXRUN (log entry 20) covers TX_WAKE and what is left after it. -/
theorem ticksLeft_txWakeStep_lt (s : State) (hframe : s.txFrame = none) :
    ticksLeft (txWakeStep s) < txrunBound s := by
  rw [ticksLeft_of_sending _ (txWakeStep_txState s), txWakeStep_txFrame, txWakeStep_txPending, txWakeStep_queue, hframe]
  simp only [txrunBound, frameLeft, frameSamples_eq]
  omega

/-- Settles O41: the first tick is TX_WAKE, and the bound covers the ticks left after it. -/
theorem everyTransmissionEnds : Obligations.EveryTransmissionEnds := by
  intro s hs hidle hreq hqueue
  have hchoice := txChoice_of_queued s hidle hreq hqueue
  have hframe : s.txFrame = none := by
    obtain ⟨-, -, -, ⟨hbusy, -⟩, -, -⟩ := hs
    by_contra hframe
    exact absurd (hbusy (.inl hframe)) (by simp [hidle])
  obtain ⟨fuel, hfuel⟩ : ∃ fuel, txrunBound s = fuel + 1 := ⟨txrunBound s - 1, by simp [txrunBound]⟩
  have hbound := ticksLeft_txWakeStep_lt s hframe
  have hsound := (TransmitEffect.wake hidle).keeps_sound hs
  rw [hfuel, txrunTicks_succ fuel s .wake hchoice, txStep, if_neg (by simp)]
  exact txrunTicks_ended fuel (txWakeStep s) hsound ⟨hreq, .inl rfl⟩ (by omega)

end Sys2Proof.Machine
end

section
/-! PROOFS. The stimulus language (spec/30_encoding.md R84, R96, R98): the decoder and the encoder agree, and a word is
a line exactly when it is the line's number. -/

namespace Sys2Proof

/-! ## Words and their fields, as numbers -/

/-- A field of a word. -/
theorem extractLsb'_toNat_eq_div {n : Nat} (w : BitVec n) (start len : Nat) :
    (w.extractLsb' start len).toNat = w.toNat / 2 ^ start % 2 ^ len := by
  rw [BitVec.extractLsb'_toNat, Nat.shiftRight_eq_div_pow]

/-- A field that must be zero. -/
theorem extractLsb'_eq_zero_iff {n : Nat} (w : BitVec n) (start len : Nat) :
    w.extractLsb' start len = 0 ↔ w.toNat / 2 ^ start % 2 ^ len = 0 := by
  rw [← extractLsb'_toNat_eq_div, ← BitVec.toNat_inj, BitVec.ofNat_eq_ofNat, BitVec.toNat_ofNat, Nat.zero_mod]

/-- A field of one bit. -/
theorem getLsbD_toNat_eq_div {n : Nat} (w : BitVec n) (i : Nat) : (w.getLsbD i).toNat = w.toNat / 2 ^ i % 2 := by
  rw [BitVec.getLsbD, Nat.toNat_testBit]

/-- A word put together from two fields. -/
theorem append_toNat_eq_add {n m : Nat} (x : BitVec n) (y : BitVec m) : (x ++ y).toNat = x.toNat * 2 ^ m + y.toNat := by
  rw [BitVec.toNat_append, Nat.shiftLeft_eq, Nat.mul_comm, ← Nat.two_pow_add_eq_or_of_lt y.isLt]

theorem resetWord_toNat (capOk playOk : Bool) : (resetWord capOk playOk).toNat = capOk.toNat + 2 * playOk.toNat := by
  cases capOk <;> cases playOk <;> rfl

theorem sampleWord_toNat (v : Sample) : (sampleWord v).toNat = 2 ^ 28 + v.toNat := by
  rw [sampleWord, append_toNat_eq_add, append_toNat_eq_add]
  rfl

theorem pushWord_toNat (c : Char8) : (pushWord c).toNat = 2 * 2 ^ 28 + c.toNat := by
  rw [pushWord, append_toNat_eq_add, append_toNat_eq_add]
  rfl

/-! ## Each line's word decodes to the line -/

theorem decodeWord_resetWord (capOk playOk : Bool) : decodeWord (resetWord capOk playOk) = .ok (.reset capOk playOk) := by
  cases capOk <;> cases playOk <;> rfl

theorem decodeWord_sampleWord (v : Sample) : decodeWord (sampleWord v) = .ok (.sample v) := by
  have hv := v.isLt
  have hop : ((sampleWord v).extractLsb' 28 4).toNat = 1 := by
    rw [extractLsb'_toNat_eq_div, sampleWord_toNat]; omega
  have hzero : (sampleWord v).extractLsb' 16 12 = 0 := by
    rw [extractLsb'_eq_zero_iff, sampleWord_toNat]; omega
  have hfield : (sampleWord v).extractLsb' 0 16 = v := BitVec.extractLsb'_append_eq_right
  simp only [decodeWord, hop, if_pos hzero, hfield]

theorem decodeWord_pushWord (c : Char8) : decodeWord (pushWord c) = .ok (.push c) := by
  have hc := c.isLt
  have hop : ((pushWord c).extractLsb' 28 4).toNat = 2 := by
    rw [extractLsb'_toNat_eq_div, pushWord_toNat]; omega
  have hzero : (pushWord c).extractLsb' 8 20 = 0 := by
    rw [extractLsb'_eq_zero_iff, pushWord_toNat]; omega
  have hfield : (pushWord c).extractLsb' 0 8 = c := BitVec.extractLsb'_append_eq_right
  simp only [decodeWord, hop, if_pos hzero, hfield]

theorem decodeWord_txtickWord (resp : PlayResp) (drained : Bool) (h : resp.isLineOperand = true) :
    decodeWord (txtickWord resp drained) = .ok (.txtick resp drained) := by
  cases resp <;> cases h <;> cases drained <;> rfl

theorem decodeWord_shutdownWord : decodeWord shutdownWord = .ok .shutdown := rfl

/-- A well-formed line is presented by its word, which decodes to it. -/
theorem decodeWord_of_isLine (i : Instr) (hline : i.isLine = true) (hw : i.wellFormed = true) :
    ∃ w, encode i = .word w ∧ decodeWord w = .ok i := by
  cases i <;> cases hline
  case reset capOk playOk => exact ⟨_, rfl, decodeWord_resetWord capOk playOk⟩
  case sample v => exact ⟨_, rfl, decodeWord_sampleWord v⟩
  case push c => exact ⟨_, rfl, decodeWord_pushWord c⟩
  case txtick resp drained => exact ⟨_, rfl, decodeWord_txtickWord resp drained hw⟩
  case shutdown => exact ⟨_, rfl, decodeWord_shutdownWord⟩

/-! ## Code words -/

/-- The row of a code word. -/
theorem codeInstr_of_codeWord (i : Instr) (k : Code) (h : i.codeWord? = some k) : codeInstr k = i := by
  cases i <;> cases h <;> rfl

/-- A code word in a byte with the upper three bits zero decodes to its row (R84). -/
theorem decodeCode_setWidth (k : Code) : decodeCode (k.setWidth 8) = .ok (codeInstr k) := by
  have hk := k.isLt
  have hbyte : (k.setWidth 8).toNat = k.toNat := by rw [BitVec.toNat_setWidth]; omega
  have hzero : (k.setWidth 8).extractLsb' 5 3 = 0 := by
    rw [extractLsb'_eq_zero_iff, hbyte]; omega
  have hfield : (k.setWidth 8).extractLsb' 0 5 = k :=
    BitVec.eq_of_toNat_eq (by rw [extractLsb'_toNat_eq_div, hbyte]; omega)
  rw [decodeCode, if_pos hzero, hfield]

/-! ## Decode after encode -/

/-- The three formats: a CODE5 row, a line, or an operation presented by name. -/
theorem encode_cases (i : Instr) :
    (∃ k, i.codeWord? = some k ∧ encode i = .code (k.setWidth 8)) ∨ i.isLine = true ∨ encode i = .op i := by
  cases i
  case reset | sample | push | txtick | shutdown => exact .inr (.inl rfl)
  case opReset | opShutdown | rxSample | rxHalt | decode | hostEnq => exact .inr (.inr rfl)
  case txWake | txLoad | txSample | txResume | txStop | txHalt => exact .inr (.inr rfl)
  all_goals exact .inl ⟨_, rfl, rfl⟩

/-- Settles O4, format by format. -/
theorem decodeOfEncodeIsTheInstruction : Obligations.DecodeOfEncodeIsTheInstruction := by
  intro i hw
  rcases encode_cases i with ⟨k, hcode, henc⟩ | hline | henc
  · rw [henc, decodeStimulus, decodeCode_setWidth, codeInstr_of_codeWord i k hcode]
  · obtain ⟨w, henc, hdec⟩ := decodeWord_of_isLine i hline hw
    rw [henc, decodeStimulus, hdec]
  · rw [henc, decodeStimulus, Machine.decodeNamed_of_wellFormed i hw]

/-! ## A word is a line or reserved -/

open Machine (lineNumber? reservedWord)

/-- An answer of the decoder that R98's table bears out: the line of that number, or an error at a reserved word. -/
def answersTable (w : BitVec 32) (answer : Except DecodeError Instr) : Prop :=
  (∃ i, answer = .ok i ∧ lineNumber? i = some w.toNat) ∨ (∃ e, answer = .error e ∧ reservedWord w)

theorem answersTable_ok {w : BitVec 32} {i : Instr} {n : Nat} (hi : lineNumber? i = some n) (hn : n = w.toNat) :
    answersTable w (.ok i) := .inl ⟨i, rfl, hi.trans (congrArg some hn)⟩

theorem answersTable_error {w : BitVec 32} (e : DecodeError) (h : reservedWord w) : answersTable w (.error e) :=
  .inr ⟨e, rfl, h⟩

/-- A field that must be zero decides between the line and a refusal. -/
theorem answersTable_ite {w : BitVec 32} {start len : Nat} {answer : Except DecodeError Instr} {e : DecodeError}
    (hzero : w.toNat / 2 ^ start % 2 ^ len = 0 → answersTable w answer)
    (hset : w.toNat / 2 ^ start % 2 ^ len ≠ 0 → reservedWord w) :
    answersTable w (if w.extractLsb' start len = 0 then answer else .error e) := by
  split
  case isTrue h => exact hzero ((extractLsb'_eq_zero_iff w start len).1 h)
  case isFalse h => exact answersTable_error e (hset (mt (extractLsb'_eq_zero_iff w start len).2 h))

/-- The answer to a word is the one of R98's table, op field by op field. -/
theorem decodeWord_answersTable (w : BitVec 32) : answersTable w (decodeWord w) := by
  have hw := w.isLt
  have hop := extractLsb'_toNat_eq_div w 28 4
  unfold decodeWord
  split
  case h_1 =>
    refine answersTable_ite (fun hzero => answersTable_ok rfl ?_) (fun hset => .inr (.inl ⟨by omega, by omega⟩))
    rw [getLsbD_toNat_eq_div, getLsbD_toNat_eq_div]
    omega
  case h_2 =>
    refine answersTable_ite (fun hzero => answersTable_ok rfl ?_) (fun hset => .inr (.inr (.inl ⟨by omega, by omega⟩)))
    rw [extractLsb'_toNat_eq_div]
    omega
  case h_3 =>
    refine answersTable_ite (fun hzero => answersTable_ok rfl ?_) (fun hset => .inr (.inr (.inr (.inl ⟨by omega, by omega⟩))))
    rw [extractLsb'_toNat_eq_div]
    omega
  case h_4 =>
    refine answersTable_ite (fun hzero => ?_) (fun hset => .inr (.inr (.inr (.inr (.inl ⟨by omega, .inl (by omega)⟩)))))
    have hresp := extractLsb'_toNat_eq_div w 0 2
    have hdrained := getLsbD_toNat_eq_div w 2
    split
    case h_1 => exact answersTable_ok rfl (by omega)
    case h_2 => exact answersTable_ok rfl (by omega)
    case h_3 => exact answersTable_ok rfl (by omega)
    case h_4 hne0 hne1 hne2 =>
      rw [imp_false] at hne0 hne1 hne2
      exact answersTable_error _ (.inr (.inr (.inr (.inr (.inl ⟨by omega, .inr (by omega)⟩)))))
  case h_5 =>
    exact answersTable_ite (fun hzero => answersTable_ok rfl (by omega))
      (fun hset => .inr (.inr (.inr (.inr (.inr ⟨by omega, by omega⟩)))))
  case h_6 hne0 hne1 hne2 hne3 hne4 =>
    rw [imp_false] at hne0 hne1 hne2 hne3 hne4
    exact answersTable_error _ (.inl (by omega))

/-- A line with a number is well-formed and is presented by the word of that number. -/
theorem encode_of_lineNumber (i : Instr) (w : BitVec 32) (h : lineNumber? i = some w.toNat) :
    i.isLine = true ∧ i.wellFormed = true ∧ encode i = .word w := by
  have hword (u : BitVec 32) (hu : some u.toNat = some w.toNat) : Stimulus.word u = .word w :=
    congrArg Stimulus.word (BitVec.eq_of_toNat_eq (Option.some.inj hu))
  cases i
  case reset capOk playOk => exact ⟨rfl, rfl, hword _ ((congrArg some (resetWord_toNat capOk playOk)).trans h)⟩
  case sample v => exact ⟨rfl, rfl, hword _ ((congrArg some (sampleWord_toNat v)).trans h)⟩
  case push c => exact ⟨rfl, rfl, hword _ ((congrArg some (pushWord_toNat c)).trans h)⟩
  case txtick resp drained =>
    have hnum (hresp : resp.isLineOperand = true) : lineNumber? (.txtick resp drained) = some (txtickWord resp drained).toNat := by
      cases resp <;> cases hresp <;> cases drained <;> rfl
    cases resp
    case reserved => cases h
    all_goals exact ⟨rfl, rfl, hword _ ((hnum rfl).symm.trans h)⟩
  case shutdown => exact ⟨rfl, rfl, hword _ h⟩
  all_goals cases h

/-- R98's table has no number of a reserved word. -/
theorem not_reservedWord_of_lineNumber (i : Instr) (w : BitVec 32) (h : lineNumber? i = some w.toNat) : ¬ reservedWord w := by
  cases i
  case reset capOk playOk =>
    have hnum := Option.some.inj h
    have hcap := capOk.toNat_le
    have hplay := playOk.toNat_le
    omega
  case sample v =>
    have hnum := Option.some.inj h
    have hv := v.isLt
    omega
  case push c =>
    have hnum := Option.some.inj h
    have hc := c.isLt
    omega
  case txtick resp drained =>
    have hdrained := drained.toNat_le
    cases resp
    case reserved => cases h
    all_goals
      have hnum := Option.some.inj h
      omega
  case shutdown =>
    have hnum := Option.some.inj h
    omega
  all_goals cases h

/-- The decoder reads a line exactly from its number. -/
theorem decodeWord_eq_ok_iff (w : BitVec 32) (i : Instr) : decodeWord w = .ok i ↔ lineNumber? i = some w.toNat := by
  constructor
  · intro hdec
    rcases decodeWord_answersTable w with ⟨j, hj, hnum⟩ | ⟨e, he, -⟩
    · cases hdec.symm.trans hj
      exact hnum
    · cases hdec.symm.trans he
  · intro hnum
    obtain ⟨hline, hwf, henc⟩ := encode_of_lineNumber i w hnum
    obtain ⟨v, henc', hdec⟩ := decodeWord_of_isLine i hline hwf
    cases henc.symm.trans henc'
    exact hdec

/-- A refused word performs no step. -/
theorem step_of_decodeWord_error (s : Machine.State) (w : BitVec 32) (rest : List Stimulus) (e : DecodeError)
    (hs : s.stim = .word w :: rest) (he : decodeWord w = .error e) : Machine.step s = .refused (.undecodable e) := by
  rw [Machine.step, Machine.fetch_word s w rest hs, he]
  rfl

/-- Settles O5: the decoder reads a line only from its number. -/
theorem encodeOfDecodeIsTheWord : Obligations.EncodeOfDecodeIsTheWord := by
  intro w i hdec
  obtain ⟨-, -, henc⟩ := encode_of_lineNumber i w ((decodeWord_eq_ok_iff w i).1 hdec)
  exact henc

/-- Settles O3: `decodeWord_cases` leaves no third kind of word, and no word is of both. -/
theorem reservedStimulusWordsAreRefused : Obligations.ReservedStimulusWordsAreRefused := by
  intro s w rest hs
  rcases decodeWord_answersTable w with ⟨i, hdec, hnum⟩ | ⟨e, he, hreserved⟩
  · obtain ⟨hline, hwf, -⟩ := encode_of_lineNumber i w hnum
    exact ⟨fun hreserved => absurd hreserved (not_reservedWord_of_lineNumber i w hnum), fun _ => ⟨i, hdec, hline, hwf⟩⟩
  · exact ⟨fun _ => ⟨e, he, step_of_decodeWord_error s w rest e hs he⟩, fun hnot => absurd hreserved hnot⟩

/-- Settles O6: the decoder answers a line exactly at the line's number, and else an error. -/
theorem stimulusWordsHaveTheirFields : Obligations.StimulusWordsHaveTheirFields := by
  intro s w rest hs
  refine ⟨decodeWord_eq_ok_iff w, fun hnone => ?_⟩
  rcases decodeWord_answersTable w with ⟨i, -, hnum⟩ | ⟨e, he, -⟩
  · exact absurd hnum (hnone i)
  · exact ⟨e, he, step_of_decodeWord_error s w rest e hs he⟩

/-- Settles O7: fixed words, evaluated. -/
theorem wordsWrittenOutDecode : Obligations.WordsWrittenOutDecode := by
  unfold Obligations.WordsWrittenOutDecode
  decide

end Sys2Proof
end

section
/-! PROOFS. The codebook (spec/20_memory.md R61, spec/30_encoding.md R85 to R90, spec/42_demodulator.md R158): the
reverse table, and a text sent and received. -/

namespace Sys2Proof.Machine

open Config (Cfg Params)

/-! ## The canonical codes (R88) -/

theorem mem_canonicalCodes_iff (k : Code) : k ∈ canonicalCodes ↔ 1 ≤ k.toNat ∧ k.toNat ≤ 0x1E ∧ k.toNat ≠ 0x1B := by
  revert k
  decide

/-- The canonical codes are listed lowest first. -/
theorem canonicalCodes_sorted : canonicalCodes.Pairwise (fun j k => j.toNat < k.toNat) := by decide

/-- In a list with the lowest code first, the first code with a property is the lowest with it. -/
theorem lowest_of_find? (codes : List Code) (q : Code → Bool) (k : Code)
    (hsorted : codes.Pairwise (fun i j => i.toNat < j.toNat)) (hfind : codes.find? q = some k) :
    (k ∈ codes ∧ q k = true) ∧ ∀ j, j ∈ codes ∧ q j = true → k.toNat ≤ j.toNat := by
  obtain ⟨hk, before, rest, rfl, hbefore⟩ := List.find?_eq_some_iff_append.1 hfind
  obtain ⟨-, hrest, -⟩ := List.pairwise_append.1 hsorted
  refine ⟨⟨by simp, hk⟩, fun j ⟨hmem, hj⟩ => ?_⟩
  rcases List.mem_append.1 hmem with hmem | hmem
  · exact absurd hj (by simpa using hbefore j hmem)
  · rcases List.mem_cons.1 hmem with rfl | hmem
    · exact Nat.le_refl _
    · exact Nat.le_of_lt (List.rel_of_pairwise_cons hrest hmem)

theorem find?_eq_some_iff_lowest (codes : List Code) (q : Code → Bool) (k : Code)
    (hsorted : codes.Pairwise (fun i j => i.toNat < j.toNat)) :
    codes.find? q = some k ↔ (k ∈ codes ∧ q k = true) ∧ ∀ j, j ∈ codes ∧ q j = true → k.toNat ≤ j.toNat := by
  refine ⟨lowest_of_find? codes q k hsorted, fun ⟨hk, hlowest⟩ => ?_⟩
  cases hfind : codes.find? q with
  | none => exact absurd hk.2 (List.find?_eq_none.1 hfind k hk.1)
  | some j =>
    obtain ⟨hj, hlowest'⟩ := lowest_of_find? codes q j hsorted hfind
    rw [BitVec.eq_of_toNat_eq (Nat.le_antisymm (hlowest j hj) (hlowest' k hk))]

/-- A code that R88 may choose for a character in a shift mode. -/
def sendable (p : Params) (ch : Char8) (mode : Shift) (k : Code) : Prop :=
  1 ≤ k.toNat ∧ k.toNat ≤ 0x1E ∧ k.toNat ≠ 0x1B ∧ fwd p mode k = ch

theorem sendable_iff (p : Params) (ch : Char8) (mode : Shift) (k : Code) :
    sendable p ch mode k ↔ k ∈ canonicalCodes ∧ (fwd p mode k == ch) = true := by
  rw [sendable, mem_canonicalCodes_iff, beq_iff_eq, and_assoc, and_assoc]

theorem lowestCode_eq_some_iff (p : Params) (ch : Char8) (mode : Shift) (k : Code) :
    lowestCode p mode ch = some k ↔ sendable p ch mode k ∧ ∀ j, sendable p ch mode j → k.toNat ≤ j.toNat := by
  simp only [sendable_iff]
  exact find?_eq_some_iff_lowest canonicalCodes _ k canonicalCodes_sorted

theorem lowestCode_eq_none_iff (p : Params) (ch : Char8) (mode : Shift) :
    lowestCode p mode ch = none ↔ ∀ k, ¬ sendable p ch mode k := by
  simp only [sendable_iff, lowestCode, List.find?_eq_none, not_and]

/-! ## The reverse table -/

/-- Rev takes the letters table first (R88). -/
theorem rev_cases (p : Params) (ch : Char8) :
    (∃ k, lowestCode p .ltrs ch = some k ∧ rev p ch = some (k, .ltrs)) ∨
    (∃ k, lowestCode p .ltrs ch = none ∧ lowestCode p .figs ch = some k ∧ rev p ch = some (k, .figs)) ∨
    (lowestCode p .ltrs ch = none ∧ lowestCode p .figs ch = none ∧ rev p ch = none) := by
  unfold rev
  cases hl : lowestCode p .ltrs ch with
  | some k => exact .inl ⟨k, rfl, rfl⟩
  | none =>
    cases hf : lowestCode p .figs ch with
    | some k => exact .inr (.inl ⟨k, rfl, rfl, rfl⟩)
    | none => exact .inr (.inr ⟨rfl, rfl, rfl⟩)

theorem rev_eq_ltrs_iff (p : Params) (ch : Char8) (k : Code) :
    rev p ch = some (k, .ltrs) ↔ lowestCode p .ltrs ch = some k := by
  rcases rev_cases p ch with ⟨j, hl, h⟩ | ⟨j, hl, -, h⟩ | ⟨hl, -, h⟩ <;> simp [hl, h]

theorem rev_eq_figs_iff (p : Params) (ch : Char8) (k : Code) :
    rev p ch = some (k, .figs) ↔ lowestCode p .ltrs ch = none ∧ lowestCode p .figs ch = some k := by
  rcases rev_cases p ch with ⟨j, hl, h⟩ | ⟨j, hl, hf, h⟩ | ⟨hl, hf, h⟩ <;> simp [*]

theorem rev_eq_none_iff (p : Params) (ch : Char8) :
    rev p ch = none ↔ lowestCode p .ltrs ch = none ∧ lowestCode p .figs ch = none := by
  rcases rev_cases p ch with ⟨j, hl, h⟩ | ⟨j, hl, hf, h⟩ | ⟨hl, hf, h⟩ <;> simp [*]

/-- Settles O13: the choice of a shift mode by `rev_cases`, the choice of a code by the order of the canonical codes. -/
theorem reverseTableIsLowestLettersFirst : Obligations.ReverseTableIsLowestLettersFirst := by
  intro p ch decodes lowest
  refine ⟨fun k => ?_, fun k => ?_, ?_⟩
  · exact (rev_eq_ltrs_iff p ch k).trans (lowestCode_eq_some_iff p ch .ltrs k)
  · exact (rev_eq_figs_iff p ch k).trans
      (and_congr (lowestCode_eq_none_iff p ch .ltrs) (lowestCode_eq_some_iff p ch .figs k))
  · rw [rev_eq_none_iff, lowestCode_eq_none_iff, lowestCode_eq_none_iff]
    exact ⟨fun ⟨hl, hf⟩ m => match m with | .ltrs => hl | .figs => hf, fun h => ⟨h .ltrs, h .figs⟩⟩

/-- What Rev chooses is sendable. -/
theorem sendable_of_rev (p : Params) (ch : Char8) (k : Code) (mode : Shift) (h : rev p ch = some (k, mode)) :
    sendable p ch mode k := by
  cases mode with
  | ltrs => exact ((lowestCode_eq_some_iff p ch .ltrs k).1 ((rev_eq_ltrs_iff p ch k).1 h)).1
  | figs => exact ((lowestCode_eq_some_iff p ch .figs k).1 ((rev_eq_figs_iff p ch k).1 h).2).1

/-- A sendable code is no shift code. -/
theorem sendable_ne_shiftCodes (p : Params) (ch : Char8) (mode : Shift) (k : Code) (h : sendable p ch mode k) :
    k ≠ figsCode ∧ k ≠ ltrsCode := by
  obtain ⟨-, hle, hne, -⟩ := h
  refine ⟨?_, ?_⟩ <;> rintro rfl
  · exact hne rfl
  · exact absurd hle (by decide)

/-- Settles O12: the 55 rows and the other 201 characters of the fixed table, evaluated. -/
theorem reverseTableIsTheSpecs : Obligations.ReverseTableIsTheSpecs := by
  unfold Obligations.ReverseTableIsTheSpecs
  decide +kernel

/-! ## DECODE -/

/-- The shift mode DECODE leaves (R158). -/
def shiftAfter (code : Code) (mode : Shift) : Shift :=
  if code = figsCode then .figs else if code = ltrsCode then .ltrs else mode

/-- What DECODE emits (R158). -/
def emittedBy (p : Params) (code : Code) (mode : Shift) : List Event :=
  if code = figsCode ∨ code = ltrsCode then [] else [.rxChar (fwd p mode code)]

/-- DECODE changes the shift mode and the trace alone. -/
theorem decodeCharacter_eq (c : Cfg) (code : Code) (s : State) :
    decodeCharacter c code s =
      { s with rxShift := shiftAfter code s.rxShift, trace := s.trace ++ emittedBy c.params code s.rxShift } := by
  rcases decodeCharacter_cases c code s with ⟨rfl, h⟩ | ⟨rfl, h⟩ | ⟨hf, hl, h⟩ <;> rw [h]
  · simp [shiftAfter, emittedBy]
  · simp [shiftAfter, emittedBy, show ltrsCode ≠ figsCode by decide]
  · simp [shiftAfter, emittedBy, hf, hl, emit]

/-- Settles O14: Rev chooses a code that decodes to the character, and DECODE reads the shift mode alone. -/
theorem roundTripLawsOfTheCodebook : Obligations.RoundTripLawsOfTheCodebook := by
  refine ⟨fun p ch k m h => ?_, by decide, fun c code s u hshift => ?_⟩
  · obtain ⟨-, -, -, hfwd⟩ := sendable_of_rev p ch k m h
    exact hfwd
  · rw [decodeCharacter_eq, decodeCharacter_eq, hshift]
    exact ⟨rfl, _, rfl, rfl⟩

/-! ## A text sent and received -/

theorem decodeRun_append (c : Cfg) (first second : List Code) (s : State) :
    decodeRun c (first ++ second) s = decodeRun c second (decodeRun c first s) := by
  induction first generalizing s with
  | nil => rfl
  | cons k rest ih => exact ih (decodeCharacter c k s)

theorem decodeCharacter_shiftCode (c : Cfg) (mode : Shift) (s : State) :
    decodeCharacter c (shiftCode mode) s = { s with rxShift := mode } := by
  cases mode <;> rfl

/-- The code of a character, received in the character's own mode (R90(a)). -/
theorem decodeCharacter_of_rev (c : Cfg) (ch : Char8) (k : Code) (s : State) (h : rev c.params ch = some (k, s.rxShift)) :
    decodeCharacter c k s = emit (.rxChar ch) s := by
  have hk := sendable_of_rev c.params ch k s.rxShift h
  obtain ⟨hf, hl⟩ := sendable_ne_shiftCodes c.params ch s.rxShift k hk
  obtain ⟨-, -, -, hfwd⟩ := hk
  rw [decodeCharacter, if_neg hf, if_neg hl, hfwd]

/-- One mapped character, encoded and received in the same mode (R184, R158). -/
theorem decodeRun_encodeCharacter (c : Cfg) (ch : Char8) (s t : State) (hmapped : rev c.params ch ≠ none)
    (hmode : t.txShift = s.rxShift) :
    decodeRun c (encodeCharacter c ch t).txPending s =
      emit (.rxChar ch) { s with rxShift := (encodeCharacter c ch t).txShift } := by
  rcases encodeCharacter_cases c ch t with ⟨h, -⟩ | ⟨k, sel, hrev, -, h⟩ | ⟨k, hrev, h⟩
  · exact absurd h hmapped
  · rw [h]
    simp only [decodeRun, decodeCharacter_shiftCode]
    exact decodeCharacter_of_rev c ch k _ hrev
  · rw [hmode] at hrev
    rw [h, hmode]
    exact decodeCharacter_of_rev c ch k s hrev

/-- Settles O15, by induction on the text: each character arrives and leaves both ends in one mode. -/
theorem textSentAsCodesIsReceivedAsText : Obligations.TextSentAsCodesIsReceivedAsText := by
  intro c text
  induction text with
  | nil => exact fun s _ => ⟨by simp [sentCodes, decodeRun], rfl⟩
  | cons ch rest ih =>
    intro s hmapped
    have hch := decodeRun_encodeCharacter c ch s { State.reset with txShift := s.rxShift } (hmapped ch (by simp)) rfl
    obtain ⟨htrace, hmode⟩ := ih (emit (.rxChar ch)
      { s with rxShift := (encodeCharacter c ch { State.reset with txShift := s.rxShift }).txShift })
      (fun x hx => hmapped x (List.mem_cons_of_mem ch hx))
    simp only [sentCodes, decodeRun_append, hch]
    exact ⟨by simpa using htrace, hmode⟩

end Sys2Proof.Machine
end

section
/-! PROOFS. Which operation of an agent a line performs (spec/30_encoding.md R94 to R96), and a frame sample by sample
(spec/30_encoding.md R81, spec/43_modulator.md R186, R193). -/

namespace Sys2Proof.Machine

open Config (Cfg)

/-! ## One operation of TX (R95) -/

/-- The operation of TX that a state leaves room for, whatever the inputs. -/
def txCandidate (s : State) : Option TxOp :=
  match s.txState with
  | .idle => if s.shutdownReq then some .halt else some .wake
  | .sending => if s.txFrame.isSome then some .sample else if s.shutdownReq then some .halt else some .load
  | .draining => if s.shutdownReq then some .halt else if s.queue.isEmpty then some .stop else some .resume
  | .fault => none
  | .halted => none

/-- An enabled operation of TX is the one its state leaves room for. -/
theorem txCandidate_of_enabled (resp : PlayResp) (drained : Bool) (s : State) (op : TxOp)
    (h : txEnabled resp drained s op = true) : txCandidate s = some op := by
  cases op
  case halt =>
    simp only [txEnabled, txHaltEnabled, txAtBoundary, Bool.and_eq_true, Bool.or_eq_true, beq_iff_eq] at h
    obtain ⟨hreq, (hstate | hstate) | ⟨hstate, hframe⟩⟩ := h
    · simp [txCandidate, hreq, hstate]
    · simp [txCandidate, hreq, hstate]
    · simp [txCandidate, hreq, hstate, hframe]
  case wake =>
    simp only [txEnabled, txWakeEnabled, Bool.and_eq_true, Bool.not_eq_true', beq_iff_eq] at h
    simp [txCandidate, h]
  case load =>
    simp only [txEnabled, txLoadEnabled, Bool.and_eq_true, Bool.not_eq_true', beq_iff_eq] at h
    simp [txCandidate, h]
  case sample =>
    simp only [txEnabled, txSampleEnabled, Bool.and_eq_true, bne_iff_ne, beq_iff_eq] at h
    simp [txCandidate, h, Option.isSome_iff_ne_none]
  case resume =>
    simp only [txEnabled, txResumeEnabled, Bool.and_eq_true, Bool.not_eq_true', beq_iff_eq] at h
    simp [txCandidate, h]
  case stop =>
    simp only [txEnabled, txStopEnabled, Bool.and_eq_true, Bool.not_eq_true', beq_iff_eq] at h
    simp [txCandidate, h]

theorem txEnabled_unique (resp : PlayResp) (drained : Bool) (s : State) (o1 o2 : TxOp)
    (h1 : txEnabled resp drained s o1 = true) (h2 : txEnabled resp drained s o2 = true) : o1 = o2 :=
  Option.some.inj
    ((txCandidate_of_enabled resp drained s o1 h1).symm.trans (txCandidate_of_enabled resp drained s o2 h2))

theorem rxSampleEnabled_iff (s : State) :
    rxSampleEnabled s = true ↔ s.rxState = .run ∧ ¬ (s.shutdownReq = true ∧ s.rxBlockPos = 0) := by
  rw [rxSampleEnabled, Bool.and_eq_true, beq_iff_eq, Bool.not_eq_true', ← Bool.not_eq_true, Bool.and_eq_true, beq_iff_eq]

theorem rxSampleEnabled_of_halt (s : State) (h : rxHaltEnabled s = true) : rxSampleEnabled s = false := by
  simp only [rxHaltEnabled, Bool.and_eq_true, beq_iff_eq] at h
  simp [rxSampleEnabled, h]

/-- Settles O8. -/
theorem eachAgentHasAtMostOneOperation : Obligations.EachAgentHasAtMostOneOperation :=
  ⟨txEnabled_unique, fun s ⟨hsample, hhalt⟩ => Bool.eq_false_iff.1 (rxSampleEnabled_of_halt s hhalt) hsample⟩

/-! ## What a line performs (R96) -/

theorem whenEnabled_of_enabled (name : String) (e : Bool) (t : State) (h : e = true) : whenEnabled name e t = .next t :=
  if_pos h

/-- The choice of a tick is the operation that is enabled. -/
theorem txChoice_of_enabled (resp : PlayResp) (drained : Bool) (s : State) (op : TxOp)
    (h : txEnabled resp drained s op = true) : txChoice resp drained s = some op := by
  cases hchoice : txChoice resp drained s with
  | none => exact absurd h (List.find?_eq_none.1 hchoice op (by cases op <;> decide))
  | some chosen => rw [txEnabled_unique resp drained s chosen op (txChoice_enabled resp drained s chosen hchoice) h]

theorem txtickLine_of_enabled (c : Cfg) (resp : PlayResp) (drained : Bool) (s : State) (op : TxOp)
    (h : txEnabled resp drained s op = true) : txtickLine c resp drained s = txStep c resp s op := by
  rw [txtickLine, txChoice_of_enabled resp drained s op h]

theorem txtickLine_of_none (c : Cfg) (resp : PlayResp) (drained : Bool) (s : State)
    (h : ∀ op, txEnabled resp drained s op = false) : txtickLine c resp drained s = s := by
  rcases txtickLine_cases c resp drained s with ⟨op, hop, -⟩ | ⟨-, hline⟩
  · exact absurd (txChoice_enabled resp drained s op hop) (Bool.eq_false_iff.1 (h op))
  · exact hline

/-- A TXTICK, and an operation of TX by name that the tick's inputs enable, answer the same. -/
theorem exec_txtick_of_enabled (name : String) (resp : PlayResp) (drained : Bool) (s : State) (op : TxOp)
    (h : txEnabled resp drained s op = true) :
    exec (.txtick resp drained) s = whenEnabled name (txEnabled resp drained s op) (txStep hw resp s op) := by
  rw [whenEnabled_of_enabled name _ _ h, ← txtickLine_of_enabled hw resp drained s op h]
  rfl

theorem exec_sample_of_rxSample (v : Sample) (s : State) (h : rxSampleEnabled s = true) :
    exec (.sample v) s = exec (.rxSample v) s := by
  have hline : sampleLine hw v s = rxSampleStep hw v s := if_pos h
  exact (congrArg Host.Outcome.next hline).trans (whenEnabled_of_enabled _ _ _ h).symm

theorem exec_sample_of_rxHalt (v : Sample) (s : State) (h : rxHaltEnabled s = true) :
    exec (.sample v) s = exec .rxHalt s := by
  have hline : sampleLine hw v s = rxHaltStep s := by simp [sampleLine, rxSampleEnabled_of_halt s h, h]
  exact (congrArg Host.Outcome.next hline).trans (whenEnabled_of_enabled _ _ _ h).symm

/-- Settles O9: a TXTICK performs the choice of R95, a SAMPLE the one of RX_SAMPLE and RX_HALT that is enabled. -/
theorem linesPerformTheEnabledOperation : Obligations.LinesPerformTheEnabledOperation := by
  intro s resp drained v
  refine ⟨exec_txtick_of_enabled _ resp drained s .wake, exec_txtick_of_enabled _ resp drained s .load,
    exec_txtick_of_enabled _ resp drained s .sample, exec_txtick_of_enabled _ resp drained s .resume,
    exec_txtick_of_enabled _ resp drained s .stop, exec_txtick_of_enabled _ resp drained s .halt,
    fun hnone => congrArg Host.Outcome.next (txtickLine_of_none hw resp drained s hnone),
    exec_sample_of_rxSample v s, exec_sample_of_rxHalt v s, fun hsample hhalt => ?_⟩
  exact congrArg Host.Outcome.next (by simp [sampleLine, hsample, hhalt])

/-! ## DECODE inside RX_SAMPLE (R94, R157, R158) -/

/-- The state after the RX_SAMPLE in which `code` is decoded. -/
theorem rxSampleStep_eq_of_decodesWord (c : Cfg) (code : Code) (v : Sample) (s : State)
    (h : decodesWord c code v s = true) :
    rxSampleStep c v s =
      { (detect c (sampleValue v) (coordTick s)).1 with
        rxPhase := .await, rxTimer := 0, rxBitidx := 0, rxWord := 0
        rxShift := shiftAfter code s.rxShift, trace := s.trace ++ emittedBy c.params code s.rxShift
        rxBlockPos := (s.rxBlockPos + 1) % c.params.captureBlock } := by
  rw [rxSampleStep_of_decodesWord c code v s h, decodeCharacter_eq]
  simp [advanceBlock, rxClear]

/-- The sample that is present plays no part in the detector. -/
theorem detect_coordTick_capSample (c : Cfg) (value : F64) (present : Option Sample) (s : State) :
    (detect c value (coordTick { s with capSample := present })).1 =
      { (detect c value (coordTick s)).1 with capSample := present } := by
  unfold coordTick
  split
  · split <;> rfl
  · rfl

/-- A row that decodes a code word, and SAMPLE and RX_SAMPLE with the sample that is present, are one step. -/
theorem exec_of_decodesWord (i : Instr) (code : Code) (v : Sample) (s : State)
    (hi : i.codeWord? = some code ∨ i = .decode code) (hpresent : s.capSample = some v)
    (h : decodesWord hw code v s = true) :
    let t := rxSampleStep hw v { s with capSample := none }
    exec i s = .next t ∧ exec (.sample v) { s with capSample := none } = .next t ∧
      exec (.rxSample v) { s with capSample := none } = .next t := by
  obtain ⟨hsample, -⟩ := (decodesWord_iff hw code v s).1 h
  obtain ⟨name, hrun⟩ := exec_decode_eq i code s hi
  have hstep : decodeStep hw s = rxSampleStep hw v { s with capSample := none } := by rw [decodeStep, hpresent]
  have hrx : exec (.rxSample v) { s with capSample := none } = .next (rxSampleStep hw v { s with capSample := none }) :=
    whenEnabled_of_enabled _ _ _ hsample
  refine ⟨?_, (exec_sample_of_rxSample v { s with capSample := none } hsample).trans hrx, hrx⟩
  rw [hrun, runDecode, whenEnabled_of_enabled _ _ _ ((decodeEnabled_of_present hw code v s hpresent).trans h), hstep]

/-- What DECODE emits with this hardware's codebook (R86). -/
theorem emittedBy_hw (code : Code) (mode : Shift) :
    emittedBy hw.params code mode =
      if code = 0x1B ∨ code = 0x1F then []
      else [.rxChar ((if mode = .ltrs then lettersTable else figuresTable).getD code.toNat 0)] := by
  cases mode <;> rfl

/-- Settles O11: the conditions are those of `decodesWord_iff`, and R86's columns are the tables of the codebook. -/
theorem decodeSetsShiftOrEmitsOneCharacter : Obligations.DecodeSetsShiftOrEmitsOneCharacter := by
  refine ⟨fun s code v i hi hpresent hrun hreq hsuppress hphase htimer hbitidx hword hmark => ?_, fun code => ⟨rfl, rfl⟩⟩
  have hsample : rxSampleEnabled s = true := (rxSampleEnabled_iff s).2 ⟨hrun, hreq⟩
  have hdecodes : decodesWord hw code v s = true :=
    (decodesWord_iff hw code v s).2 ⟨hsample, hsuppress, hphase, htimer.le, hbitidx.ge, hmark, hword⟩
  obtain ⟨hexec, hline, hrx⟩ := exec_of_decodesWord i code v s hi hpresent hdecodes
  refine ⟨_, hexec, hline, hrx, ?_⟩
  rw [rxSampleStep_eq_of_decodesWord hw code v _ ((decodesWord_capSample hw code v none s).trans hdecodes),
    detect_coordTick_capSample, emittedBy_hw]
  rfl

/-! ## A frame, sample by sample -/

/-- The position in a frame after `n` of its samples, none once all 1239 are out (R81, R193(a)). -/
def frameAfter (code : Code) (n : Nat) : Option TxFrame :=
  if h : n / 177 < 7 then some ⟨code, ⟨n / 177, h⟩, n % 177⟩ else none

theorem frameAfter_of_lt (code : Code) (n : Nat) (h : n < 1239) :
    ∃ f, frameAfter code n = some f ∧ f.code = code ∧ f.cell.val = n / 177 ∧ f.smp = n % 177 :=
  ⟨_, dif_pos (by omega), rfl, rfl, rfl⟩

/-- One more sample goes one position on. -/
theorem nextFrame_of_frameAfter (code : Code) (n : Nat) (f : TxFrame) (h : frameAfter code n = some f) :
    nextFrame f = frameAfter code (n + 1) := by
  obtain ⟨hcell, rfl⟩ : ∃ hcell : n / 177 < 7, f = ⟨code, ⟨n / 177, hcell⟩, n % 177⟩ := by
    unfold frameAfter at h
    split at h <;> cases h
    exact ⟨_, rfl⟩
  unfold nextFrame frameAfter
  split
  case isTrue hlast =>
    simp only [samplesPerBit_eq] at hlast
    have hdiv : (n + 1) / 177 = n / 177 + 1 := by omega
    have hmod : (n + 1) % 177 = 0 := by omega
    simp only [hdiv, hmod]
  case isFalse hmore =>
    simp only [samplesPerBit_eq] at hmore
    have hdiv : (n + 1) / 177 = n / 177 := by omega
    have hmod : (n + 1) % 177 = n % 177 + 1 := by omega
    simp only [hdiv, hmod, dif_pos hcell]

/-- A tick with an ACCEPT in a frame puts out one sample. -/
theorem txtickLine_accept (drained : Bool) (s : State) (f : TxFrame) (hsending : s.txState = .sending)
    (hframe : s.txFrame = some f) : txtickLine hw .accept drained s = txAcceptSample hw f s := by
  have henabled : txEnabled .accept drained s .sample = true := by
    simp [txEnabled, txSampleEnabled, answersSample, effectiveResp, hsending, hframe]
  rw [txtickLine_of_enabled hw .accept drained s .sample henabled]
  simp [txStep, txSampleStep, effectiveResp, hframe]

theorem acceptedTicks_succ (drained : Bool) (n : Nat) (s : State) :
    acceptedTicks drained (n + 1) s = txtickLine hw .accept drained (acceptedTicks drained n s) := by
  induction n generalizing s with
  | zero => rfl
  | succ n ih => exact ih (txtickLine hw .accept drained s)

/-- What `n` accepted samples of a frame leave: its position, and `n` samples more in the trace. -/
def frameUnderWay (code : Code) (n : Nat) (s t : State) : Prop :=
  t.txState = .sending ∧ t.txFrame = frameAfter code n ∧
    ∃ vs : List Sample, vs.length = n ∧ t.trace = s.trace ++ vs.map .sample

theorem acceptedTicks_frameUnderWay (code : Code) (drained : Bool) (s : State) (hsending : s.txState = .sending)
    (hframe : s.txFrame = some ⟨code, 0, 0⟩) (n : Nat) (hn : n ≤ 1239) :
    frameUnderWay code n s (acceptedTicks drained n s) := by
  induction n with
  | zero => exact ⟨hsending, hframe, [], rfl, by simp [acceptedTicks]⟩
  | succ n ih =>
    obtain ⟨hstate, hpos, vs, hlen, htrace⟩ := ih (by omega)
    obtain ⟨f, hf, -⟩ := frameAfter_of_lt code n (by omega)
    rw [acceptedTicks_succ, txtickLine_accept drained _ f hstate (hpos.trans hf)]
    refine ⟨by simpa using hstate, ?_, vs ++ [synthSample hw (acceptedTicks drained n s)], by simp [hlen], ?_⟩
    · rw [txAcceptSample_txFrame, nextFrame_of_frameAfter code n f hf]
    · simp [htrace]

/-- Settles O40: 7 cells of 177 samples. -/
theorem frameIsExactly1239Samples : Obligations.FrameIsExactly1239Samples := by
  intro s code drained hsending hframe
  have hafter := acceptedTicks_frameUnderWay code drained s hsending hframe
  refine ⟨fun n hn => ?_, ?_⟩
  · obtain ⟨-, hpos, -⟩ := hafter n (by omega)
    rw [hpos]
    exact frameAfter_of_lt code n hn
  · obtain ⟨hstate, hpos, hsamples⟩ := hafter 1239 (Nat.le_refl _)
    exact ⟨hpos, hstate, hsamples⟩

end Sys2Proof.Machine
end

section
/-! PROOFS. FILTER_STEP along a sequence of inputs (spec/40_filter.md R110, R111, R120), and DESIGN at the default
parameters (spec/40_filter.md R116, spec/43_modulator.md R190). -/

namespace Sys2Proof.Machine

open Config (Coeffs)

/-! ## The sum of FILTER_STEP (R111) -/

/-- A sum over a coefficient vector, term by term in the order of the indices, for any history long enough. -/
theorem accumulate_eq_foldl (acc : F64) (as xs : List F64) (hlen : as.length ≤ xs.length) :
    accumulate acc as xs =
      (List.range as.length).foldl (fun acc i => acc.add ((as.getD i F64.zero).mul (xs.getD i F64.zero))) acc := by
  induction as generalizing acc xs with
  | nil => rfl
  | cons a as ih =>
    cases xs with
    | nil => simp at hlen
    | cons x xs =>
      rw [accumulate, ih _ xs (by simpa using hlen), List.length_cons, List.range_succ_eq_map, List.foldl_cons,
        List.foldl_map]
      simp

/-- FILTER_STEP shifts the input into the one history and the output into the other. -/
theorem filterStep_fst (k : Coeffs) (f : Filter) (v : F64) :
    (filterStep k f v).1 = ⟨(v :: f.xh).take k.a.length, ((filterStep k f v).2 :: f.yh).take k.b.length⟩ := rfl

/-- The output sums over the inputs with the new one, then over the outputs before it. -/
theorem filterStep_snd (k : Coeffs) (f : Filter) (v : F64) :
    (filterStep k f v).2 = accumulate (accumulate F64.zero k.a (filterStep k f v).1.xh) k.b f.yh := rfl

/-! ## The histories along a run (R110) -/

/-- A history of length `n`, from one of 0.0, once the values `vs` were shifted in: newest first. -/
def history (n : Nat) (vs : List F64) : List F64 := (vs.reverse ++ List.replicate n F64.zero).take n

@[simp] theorem length_history (n : Nat) (vs : List F64) : (history n vs).length = n := by simp [history]

@[simp] theorem history_nil (n : Nat) : history n [] = List.replicate n F64.zero := by simp [history]

/-- Shifting a value in and dropping the oldest one. -/
theorem take_cons_history (n : Nat) (vs : List F64) (v : F64) :
    (v :: history n vs).take n = history n (vs ++ [v]) := by
  cases n with
  | zero => simp [history]
  | succ n => simp [history, List.take_take]

/-- After the first `t` values of `vs`, the history holds at index `i` the value `i + 1` places back, and 0.0 before the
first. -/
theorem getD_history_take (n t i : Nat) (vs : List F64) (hi : i < n) (ht : t ≤ vs.length) :
    (history n (vs.take t)).getD i F64.zero = if i + 1 ≤ t then vs.getD (t - 1 - i) F64.zero else F64.zero := by
  have hlen : (vs.take t).length = t := by simpa using ht
  simp only [history, List.getD_eq_getElem?_getD, List.getElem?_take_of_lt hi]
  split
  case isTrue hle =>
    rw [List.getElem?_append_left (by simp; omega), List.getElem?_reverse (by omega), hlen,
      List.getElem?_take_of_lt (by omega)]
  case isFalse hgt =>
    rw [List.getElem?_append_right (by simp; omega), List.getElem?_replicate_of_lt (by simp; omega), Option.getD_some]

/-- The filter left by FILTER_STEP on a sequence of inputs. -/
def filterAfter (k : Coeffs) (f : Filter) (xs : List F64) : Filter := xs.foldl (fun g v => (filterStep k g v).1) f

theorem filterAfter_concat (k : Coeffs) (f : Filter) (xs : List F64) (v : F64) :
    filterAfter k f (xs ++ [v]) = (filterStep k (filterAfter k f xs) v).1 := by
  simp [filterAfter]

theorem filterOutputs_concat (k : Coeffs) (f : Filter) (xs : List F64) (v : F64) :
    filterOutputs k f (xs ++ [v]) = filterOutputs k f xs ++ [(filterStep k (filterAfter k f xs) v).2] := by
  induction xs generalizing f with
  | nil => rfl
  | cons x xs ih => simp [filterOutputs, filterAfter, ih]

@[simp] theorem length_filterOutputs (k : Coeffs) (f : Filter) (xs : List F64) :
    (filterOutputs k f xs).length = xs.length := by
  induction xs generalizing f with
  | nil => rfl
  | cons x xs ih => simp [filterOutputs, ih]

/-- The first outputs depend on the first inputs alone. -/
theorem take_filterOutputs (k : Coeffs) (f : Filter) (xs : List F64) (t : Nat) :
    (filterOutputs k f xs).take t = filterOutputs k f (xs.take t) := by
  induction xs generalizing f t with
  | nil => simp [filterOutputs]
  | cons x xs ih =>
    cases t with
    | zero => rfl
    | succ t => simp [filterOutputs, ih]

theorem getD_filterOutputs (k : Coeffs) (f : Filter) (xs : List F64) (t : Nat) (z : F64) (ht : t < xs.length) :
    (filterOutputs k f xs).getD t z = (filterStep k (filterAfter k f (xs.take t)) xs[t]).2 := by
  induction xs generalizing f t with
  | nil => simp at ht
  | cons x xs ih =>
    cases t with
    | zero => rfl
    | succ t => exact ih (filterStep k f x).1 t (by simpa using ht)

/-- The filter of a coefficient pair at reset: histories of 0.0, as long as the vectors (R23, R110). -/
abbrev filterAtReset (k : Coeffs) : Filter := Filter.reset k.a.length k.b.length

/-- From reset the two histories are those of the inputs and of the outputs so far. -/
theorem filterAfter_reset (k : Coeffs) (xs : List F64) :
    filterAfter k (filterAtReset k) xs =
      ⟨history k.a.length xs, history k.b.length (filterOutputs k (filterAtReset k) xs)⟩ := by
  induction xs using List.reverseRecOn with
  | nil => simp [filterAfter, filterOutputs, Filter.reset]
  | append_singleton xs v ih =>
    rw [filterAfter_concat, filterOutputs_concat, ← take_cons_history, ← take_cons_history, filterStep_fst, ih]

/-- The output at `t` is the sum over the inputs up to it and the outputs before it. -/
theorem getD_filterOutputs_reset (k : Coeffs) (xs : List F64) (t : Nat) (z : F64) (ht : t < xs.length) :
    (filterOutputs k (filterAtReset k) xs).getD t z =
      accumulate (accumulate F64.zero k.a (history k.a.length (xs.take (t + 1)))) k.b
        (history k.b.length ((filterOutputs k (filterAtReset k) xs).take t)) := by
  rw [getD_filterOutputs k _ xs t z ht, filterStep_snd, ← filterAfter_concat, List.take_concat_get' xs t ht,
    filterAfter_reset, filterAfter_reset, take_filterOutputs]

/-- A sum over the history after the first `t` values of `vs`, term by term. -/
theorem accumulate_history (acc : F64) (as vs : List F64) (t : Nat) (ht : t ≤ vs.length) :
    accumulate acc as (history as.length (vs.take t)) =
      (List.range as.length).foldl (fun acc i => acc.add ((as.getD i F64.zero).mul
        (if i + 1 ≤ t then vs.getD (t - 1 - i) F64.zero else F64.zero))) acc := by
  rw [accumulate_eq_foldl acc as _ (length_history _ _).ge]
  refine List.foldl_ext _ _ _ fun b i hi => ?_
  rw [getD_history_take _ t i vs (List.mem_range.1 hi) ht]

/-- Settles O23: each output is the sum over the two histories, which hold the inputs and the outputs so far. -/
theorem filterIsItsDifferenceEquation : Obligations.FilterIsItsDifferenceEquation := by
  intro k xs t ht zero ys forward
  have hforward : accumulate zero k.a (history k.a.length (xs.take (t + 1))) = forward := by
    rw [accumulate_history zero k.a xs (t + 1) ht]
    simp only [Nat.add_le_add_iff_right, Nat.add_sub_cancel]
    rfl
  have hprior : t ≤ ys.length := by rw [length_filterOutputs]; exact ht.le
  refine ⟨length_filterOutputs k _ xs, ?_⟩
  calc ys.getD t zero
      = accumulate (accumulate zero k.a (history k.a.length (xs.take (t + 1)))) k.b
          (history k.b.length (ys.take t)) := getD_filterOutputs_reset k xs t zero ht
    _ = _ := by rw [hforward]; exact accumulate_history forward k.b ys t hprior

/-! ## DESIGN at the defaults (R116, R190) -/

theorem designBpf_mark : designBpf hwParams Config.markHz hwParams.bandwidth = hwDesign.bpfMark := by decide +kernel

theorem designBpf_space : designBpf hwParams Config.spaceHz hwParams.bandwidth = hwDesign.bpfSpace := by decide +kernel

theorem designLpf_cutoff : designLpf hwParams hwParams.cutoff = hwDesign.lpfMark := by decide +kernel

theorem phaseIncrement_mark : phaseIncrement Config.markHz = hwDesign.incMark := by decide +kernel

theorem phaseIncrement_space : phaseIncrement Config.spaceHz = hwDesign.incSpace := by decide +kernel

theorem design_hwParams : design hwParams = hwDesign := by
  rw [design, designBpf_mark, designBpf_space, designLpf_cutoff, phaseIncrement_mark, phaseIncrement_space]
  rfl

/-- Settles O22: the procedures evaluated at the defaults, and the table's values against their bit patterns. -/
theorem designAtTheDefaultsIsTheTable : Obligations.DesignAtTheDefaultsIsTheTable :=
  ⟨design_hwParams, by decide +kernel⟩

end Sys2Proof.Machine
end

section
/-! PROOFS. The tone detector (spec/41_tone_detector.md): the sample conversion is exact (R130), the decisions are strict
comparisons (R134, R135), and silence leaves the filters as RESET left them (R137). -/

namespace Sys2Proof.F64

/-! ## Exact values round to themselves (R12) -/

/-- An exact value that a field stands for rounds to that field. -/
theorem RoundsTo.eq_of_exact {q k r : Nat} (h : RoundsTo (fieldMag k * q) q r) (hq : 0 < q) : r = k := by
  by_contra hne
  have hpos : 0 ≤ |((fieldMag k * q : Nat) : Int) - (fieldMag r * q : Nat)| := abs_nonneg _
  rcases h.closest hq (Ne.symm hne) with hlt | ⟨heq, -⟩
  · rw [sub_self, abs_zero] at hlt
    omega
  · rw [sub_self, abs_zero, abs_eq_zero, sub_eq_zero, Nat.cast_inj] at heq
    exact hne (fieldMag_strictMono.injective (Nat.eq_of_mul_eq_mul_right hq heq).symm)

theorem roundMag_fieldMag (k : Nat) : roundMag (fieldMag k) 0 = k := by
  have h := roundsTo_roundMag (fieldMag k) 0
  rw [pow_zero] at h
  exact RoundsTo.eq_of_exact (q := 1) (by rwa [mul_one]) one_pos

/-- A significand of at most 53 bits, with room to shift it to a full one, is the magnitude of a field. -/
theorem exists_fieldMag_eq (m j : Nat) (hm : m < 2 ^ 53) (hj : 52 ≤ j) :
    ∃ k ≤ j * 2 ^ 52 + 2 ^ 53, fieldMag k = m * 2 ^ j := by
  rcases Nat.eq_zero_or_pos m with rfl | hpos
  · exact ⟨0, Nat.zero_le _, by simp⟩
  have hlog : Nat.log2 m ≤ 52 := Nat.lt_succ_iff.1 ((Nat.log2_lt hpos.ne').2 hm)
  set shift := 52 - Nat.log2 m with hshift
  have hfull : 2 ^ 52 ≤ m * 2 ^ shift := by
    calc 2 ^ 52 = 2 ^ Nat.log2 m * 2 ^ shift := by rw [← pow_add]; congr 1; omega
      _ ≤ m * 2 ^ shift := Nat.mul_le_mul_right _ (Nat.log2_self_le hpos.ne')
  have hfits : m * 2 ^ shift ≤ 2 ^ 53 := by
    calc m * 2 ^ shift ≤ 2 ^ (Nat.log2 m + 1) * 2 ^ shift := Nat.mul_le_mul_right _ Nat.lt_log2_self.le
      _ = 2 ^ 53 := by rw [← pow_add]; congr 1; omega
  refine ⟨(j - shift) * 2 ^ 52 + m * 2 ^ shift, ?_, ?_⟩
  · exact Nat.add_le_add (Nat.mul_le_mul_right _ (Nat.sub_le _ _)) hfits
  · rw [fieldMag_scaled _ _ (.inr hfull) hfits, mul_assoc, ← pow_add, Nat.add_sub_cancel' (by omega)]

theorem signed_mul_natCast (s : Bool) (m q : Nat) : signed s m * q = signed s (m * q) := by
  cases s <;> simp [signed]

/-- `real(n)` is exact for integers of at most 53 bits. -/
theorem units?_real (n : Int) (hn : n.natAbs < 2 ^ 53) : units? (real n) = some (n * 2 ^ 1074) := by
  obtain ⟨k, hk, hmag⟩ := exists_fieldMag_eq n.natAbs unitBits hn (by decide)
  have hfinite : k < fieldLimit := by unfold unitBits at hk; unfold fieldLimit; omega
  have hsigned : signed (decide (n < 0)) (n.natAbs * 2 ^ unitBits) = n * 2 ^ 1074 := by
    rw [← signed_mul_natCast, signed_decide_natAbs, Nat.cast_pow, Nat.cast_ofNat, unitBits]
  rw [real, roundTo, ← hmag, roundMag_fieldMag, units?_ofField _ k hfinite, hmag, hsigned]

/-! ## Zeros -/

theorem units?_num_zero (s : Bool) : units? (.num s 0 0) = some 0 := by cases s <;> rfl

theorem roundTo_zero (s : Bool) (d : Nat) : roundTo s 0 d = .num s 0 0 := by
  have hfield : roundMag 0 d = 0 :=
    Nat.le_zero.1 ((roundsTo_roundMag 0 d).le_of_le (by positivity) (Nat.zero_le _))
  rw [roundTo, hfield]
  rfl

theorem real_zero : real 0 = zero := by
  rw [real, Int.natAbs_zero, Nat.zero_mul, roundTo_zero]
  rfl

theorem zero_sub_zero : zero.sub zero = zero := add_of_eq_zero zero zero.neg 0 0 rfl rfl rfl

/-- A finite factor of `+0.0` adds nothing to `+0.0`: the product is a zero, of either sign. -/
theorem add_mul_zero (a : F64) (x : Int) (ha : units? a = some x) : zero.add (a.mul zero) = zero := by
  have hzero : units? zero = some 0 := rfl
  rw [mul_of_units a zero x 0 ha hzero, Int.natAbs_zero, Nat.mul_zero, roundTo_zero]
  exact add_of_eq_zero zero _ 0 0 hzero (units?_num_zero _) rfl

end Sys2Proof.F64

namespace Sys2Proof.Machine

open Config (Cfg Coeffs)

/-! ## The sample conversion (R130) -/

/-- Settles O20: a sample has fewer than 53 bits. -/
theorem sampleConversionIsExact : Obligations.SampleConversionIsExact := by
  intro v
  refine F64.units?_real v.toInt ?_
  have hlow := BitVec.le_toInt v
  have hhigh := BitVec.toInt_lt (x := v)
  omega

theorem sampleValue_zero : sampleValue 0 = F64.zero := F64.real_zero

/-! ## The decisions (R134, R135) -/

theorem isMark_iff (nrz : F64) : isMark nrz = true ↔ ∃ u, F64.orderKey nrz = some u ∧ 0 < u := by
  have hzero : F64.orderKey F64.zero = some 0 := rfl
  rw [isMark, F64.gt, F64.lt_iff]
  simp [hzero]

theorem isStart_iff (c : Cfg) (nrz : F64) :
    isStart c nrz = true ↔
      ∃ u t, F64.orderKey nrz = some u ∧ F64.orderKey c.params.startThreshold = some t ∧ u < -t := by
  rw [isStart, F64.lt_iff, F64.orderKey_neg]
  cases F64.orderKey c.params.startThreshold <;> simp

theorem hw_startThreshold : hw.params.startThreshold = F64.real 2000 := by rw [hw, hwParams]

theorem orderKey_startThreshold : F64.orderKey hw.params.startThreshold = some (2000 * 2 ^ 1074) := by
  rw [hw_startThreshold]
  exact F64.orderKey_of_units _ _ (F64.units?_real 2000 (by decide))

/-- Settles O24. -/
theorem markAndStartDecisions : Obligations.MarkAndStartDecisions :=
  ⟨isMark_iff, isStart_iff, orderKey_startThreshold⟩

/-- 0.0 is not below the negated threshold. -/
theorem isStart_zero : isStart hw F64.zero = false := by
  refine Bool.eq_false_iff.2 fun h => ?_
  obtain ⟨u, t, hu, ht, hlt⟩ := (isStart_iff hw F64.zero).1 h
  have hu0 : u = 0 := (Option.some.inj hu).symm
  have htpos : 0 < t := by
    rw [← Option.some.inj (orderKey_startThreshold.symm.trans ht)]
    exact Int.mul_pos (by decide) (pow_pos two_pos 1074)
  omega

/-! ## One sample of the receive path (R131 to R133, R150) -/

/-- Settles O26: with RX_SAMPLE enabled, the line and the operation by name are the one step. -/
theorem rxSampleTicksDetectsAndDemodulates : Obligations.RxSampleTicksDetectsAndDemodulates := by
  intro s v hrun hboundary
  have henabled : rxSampleEnabled s = true := (rxSampleEnabled_iff s).2 ⟨hrun, hboundary⟩
  have hexec : exec (.rxSample v) s = .next (rxSampleStep hw v s) := whenEnabled_of_enabled _ _ _ henabled
  refine ⟨rxSampleStep hw v s, hexec, (exec_sample_of_rxSample v s henabled).trans hexec, ?_, ?_, ?_, ?_⟩
  · simp [rxSampleStep, detect, advanceBlock]
  · simp [sameTransmitter]
  · simpa using hrun
  · simp

/-! ## Silence (R137) -/

/-- The coefficients are finite values. -/
abbrev finiteCoeffs (as : List F64) : Prop := ∀ a ∈ as, (F64.units? a).isSome = true

theorem accumulate_zero (as : List F64) (n : Nat) (h : finiteCoeffs as) :
    accumulate F64.zero as (List.replicate n F64.zero) = F64.zero := by
  induction as generalizing n with
  | nil => rfl
  | cons a as ih =>
    cases n with
    | zero => rfl
    | succ n =>
      obtain ⟨x, hx⟩ := Option.isSome_iff_exists.1 (h a List.mem_cons_self)
      rw [List.replicate_succ, accumulate, F64.add_mul_zero a x hx]
      exact ih n fun b hb => h b (List.mem_cons_of_mem a hb)

/-- A filter at reset stays at reset on an input of 0.0, and its output is 0.0. -/
theorem filterStep_zero (k : Coeffs) (ha : finiteCoeffs k.a) (hb : finiteCoeffs k.b) :
    filterStep k (filterAtReset k) F64.zero = (filterAtReset k, F64.zero) := by
  have hshift (n : Nat) : (F64.zero :: List.replicate n F64.zero).take n = List.replicate n F64.zero := by
    rw [← List.replicate_succ, List.take_replicate, Nat.min_eq_left n.le_succ]
  simp only [filterStep, filterAtReset, Filter.reset, hshift, accumulate_zero _ _ ha, accumulate_zero _ _ hb]

/-- The reset state but for the block position. -/
def idleAt (pos : Nat) : State := { State.reset with rxBlockPos := pos }

theorem detect_idleAt (pos : Nat) : detect hw F64.zero (idleAt pos) = (idleAt pos, F64.zero) := by
  have hbpfMark : filterStep hw.design.bpfMark (Filter.reset 3 2) F64.zero = (Filter.reset 3 2, F64.zero) :=
    filterStep_zero hw.design.bpfMark (by decide) (by decide)
  have hbpfSpace : filterStep hw.design.bpfSpace (Filter.reset 3 2) F64.zero = (Filter.reset 3 2, F64.zero) :=
    filterStep_zero hw.design.bpfSpace (by decide) (by decide)
  have hlpfMark : filterStep hw.design.lpfMark (Filter.reset 1 1) F64.zero = (Filter.reset 1 1, F64.zero) :=
    filterStep_zero hw.design.lpfMark (by decide) (by decide)
  have hlpfSpace : filterStep hw.design.lpfSpace (Filter.reset 1 1) F64.zero = (Filter.reset 1 1, F64.zero) :=
    filterStep_zero hw.design.lpfSpace (by decide) (by decide)
  have habs : F64.zero.abs = F64.zero := rfl
  simp only [detect, idleAt, State.reset, hbpfMark, hbpfSpace, habs, hlpfMark, hlpfSpace, F64.zero_sub_zero]

/-- 0.0 does not start a frame. -/
theorem demod_idleAt (pos : Nat) : demod hw F64.zero (idleAt pos) = idleAt pos := by
  rcases demod_cases hw F64.zero (idleAt pos) with ⟨hsuppress, -⟩ | ⟨-, -, hdemod⟩ | ⟨-, hphase, -⟩
  · cases hsuppress
  · rcases awaitStep_cases hw F64.zero (idleAt pos) with ⟨hstart, -⟩ | ⟨-, hstay⟩
    · rw [isStart_zero] at hstart
      cases hstart
    · rw [hdemod, hstay]
  · cases hphase

/-- On a sample of silence only the block position moves. -/
theorem sampleLine_idleAt (pos : Nat) : sampleLine hw 0 (idleAt pos) = idleAt ((pos + 1) % 2048) := by
  have hline : sampleLine hw 0 (idleAt pos) = rxSampleStep hw 0 (idleAt pos) := if_pos rfl
  have htick : coordTick (idleAt pos) = idleAt pos := rfl
  rw [hline, rxSampleStep, sampleValue_zero, htick, detect_idleAt, demod_idleAt]
  rfl

theorem runSamples_idleAt (n pos : Nat) : ∃ last, runSamples (List.replicate n 0) (idleAt pos) = idleAt last := by
  induction n generalizing pos with
  | zero => exact ⟨pos, rfl⟩
  | succ n ih =>
    rw [List.replicate_succ, runSamples, sampleLine_idleAt]
    exact ih _

/-- Settles O25: after any run of zero samples the block position alone has moved. -/
theorem silenceNeverStartsAFrame : Obligations.SilenceNeverStartsAFrame := by
  intro n s
  obtain ⟨last, hrun⟩ : ∃ last, s = idleAt last := runSamples_idleAt n 0
  have htick : coordTick (idleAt last) = idleAt last := rfl
  rw [hrun, sampleValue_zero, htick, detect_idleAt]
  exact ⟨rfl, rfl, rfl⟩

end Sys2Proof.Machine
end

section
/-! PROOFS. The demodulator sample by sample (spec/42_demodulator.md R151 to R159): suppressed, waiting for a start, and
through a whole frame. -/

namespace Sys2Proof.Machine

open Config (Cfg)

/-! ## Suppressed (R151, R152, R162) -/

theorem demod_of_suppressed (c : Cfg) (nrz : F64) (s : State) (h : s.suppress = true) : demod c nrz s = rxClear s :=
  if_pos h

/-- RX_SAMPLE with reception suppressed after its tick: the detector runs, the demodulator is cleared. -/
theorem rxSampleStep_of_suppressed (c : Cfg) (v : Sample) (s : State) (h : (coordTick s).suppress = true) :
    rxSampleStep c v s = advanceBlock c (rxClear (detect c (sampleValue v) (coordTick s)).1) := by
  rw [rxSampleStep, demod_of_suppressed c _ _ ((detect_suppress ..).trans h)]

/-- A tick that is not the guard's last leaves the suppression as it is. -/
theorem coordTick_suppress_of_not_expiring (s : State) (h : ¬ (s.guardArmed = true ∧ s.guardCount ≤ 1)) :
    (coordTick s).suppress = s.suppress := by
  rcases coordTick_cases s with ⟨-, htick⟩ | ⟨-, -, htick⟩ | ⟨harmed, hcount, -⟩
  · rw [htick]
  · rw [htick]
  · exact absurd ⟨harmed, hcount⟩ h

/-- Settles O27: the guard does not expire on this tick, so the demodulator finds reception suppressed. -/
theorem suppressedSampleEmitsNothing : Obligations.SuppressedSampleEmitsNothing := by
  intro s v hrun hboundary hsuppress hguard
  have htick : (coordTick s).suppress = true := (coordTick_suppress_of_not_expiring s hguard).trans hsuppress
  have hexec : exec (.rxSample v) s = .next (rxSampleStep hw v s) :=
    whenEnabled_of_enabled _ _ _ ((rxSampleEnabled_iff s).2 ⟨hrun, hboundary⟩)
  refine ⟨_, hexec, ?_⟩
  rw [rxSampleStep_of_suppressed hw v s htick]
  simp [htick]

/-! ## Waiting for a start (R153) -/

theorem demod_of_await (c : Cfg) (nrz : F64) (s : State) (hsuppress : s.suppress = false) (hphase : s.rxPhase = .await) :
    demod c nrz s = awaitStep c nrz s := by simp [demod, hsuppress, hphase]

/-- Settles O28. -/
theorem awaitStartsAFrameOnStart : Obligations.AwaitStartsAFrameOnStart := by
  intro c nrz s hsuppress hphase
  rw [demod_of_await c nrz s hsuppress hphase]
  rcases awaitStep_cases c nrz s with ⟨hstart, hawait⟩ | ⟨hstart, hawait⟩
  · rw [hawait, if_pos hstart, startDelay_eq]
  · rw [hawait, hstart, if_neg Bool.false_ne_true]

/-! ## In a frame (R154 to R157) -/

section
variable (c : Cfg) (nrz : F64) (s : State) (hsuppress : s.suppress = false) (hphase : s.rxPhase = .framing)
include hsuppress hphase

theorem demod_of_framing : demod c nrz s = framingStep c nrz s := by simp [demod, hsuppress, hphase]

theorem demod_of_timer_running (htimer : 2 ≤ s.rxTimer) : demod c nrz s = { s with rxTimer := s.rxTimer - 1 } := by
  rw [demod_of_framing c nrz s hsuppress hphase]
  rcases framingStep_cases c nrz s with ⟨-, h⟩ | ⟨hend, -⟩ | ⟨hend, -⟩
  · exact h
  all_goals omega

theorem demod_of_data_bit (htimer : s.rxTimer = 1) (hidx : s.rxBitidx < 5) :
    demod c nrz s = dataBit (isMark nrz) { s with rxTimer := 177 } := by
  rw [demod_of_framing c nrz s hsuppress hphase]
  rcases framingStep_cases c nrz s with ⟨hrun, -⟩ | ⟨-, -, h⟩ | ⟨-, hstop, -⟩
  · omega
  · exact h
  · omega

theorem demod_of_stop_space (htimer : s.rxTimer = 1) (hidx : 5 ≤ s.rxBitidx) (hspace : isMark nrz = false) :
    demod c nrz s = rxClear (emit (.framingError s.rxWord) s) := by
  rw [demod_of_framing c nrz s hsuppress hphase]
  rcases framingStep_cases c nrz s with ⟨hrun, -⟩ | ⟨-, hdata, -⟩ | ⟨-, -, h⟩
  · omega
  · omega
  · rw [h, hspace]
    rfl

end

/-- DATA_BIT puts the bit at the index into the word (R155). -/
theorem dataBit_getLsbD (b : Bool) (s : State) (k : Nat) (hk : k < 5) :
    (dataBit b s).rxWord.getLsbD k = (s.rxWord.getLsbD k || (b && decide (k = s.rxBitidx))) := by
  cases b with
  | false => simp [dataBit]
  | true =>
    have hbit : (1#5 <<< s.rxBitidx).getLsbD k = decide (k = s.rxBitidx) := by
      rw [BitVec.getLsbD_shiftLeft, BitVec.getLsbD_one, Bool.eq_iff_iff]
      simp only [Bool.and_eq_true, Bool.not_eq_true', decide_eq_true_eq, decide_eq_false_iff_not]
      omega
    rw [Bool.true_and, ← hbit]
    exact BitVec.getLsbD_or

/-- Settles O29: the timer runs, or its end decides a data bit or the stop bit. -/
theorem framingSamplesBitsAtMidCell : Obligations.FramingSamplesBitsAtMidCell := by
  intro c nrz s hsuppress hphase _
  refine ⟨demod_of_timer_running c nrz s hsuppress hphase, fun htimer hidx => ?_, fun htimer hidx hmark => ?_,
    demod_of_stop_space c nrz s hsuppress hphase⟩
  · exact ⟨(dataBit (isMark nrz) s).rxWord, dataBit_getLsbD (isMark nrz) s,
      demod_of_data_bit c nrz s hsuppress hphase htimer hidx⟩
  · exact demod_of_stop_mark c nrz s hsuppress hphase htimer.le hidx hmark

/-! ## A whole frame (R159) -/

theorem demodRun_concat (c : Cfg) (vs : List F64) (v : F64) (s : State) :
    demodRun c (vs ++ [v]) s = demod c v (demodRun c vs s) := by
  induction vs generalizing s with
  | nil => rfl
  | cons u rest ih => exact ih (demod c u s)

/-- The data bits decided in the first `n` samples after the start: one at 265 and one every 177 from there. -/
def bitsDecided (n : Nat) : Nat := (n - 88) / 177

/-- The bits of `w` due after `n` samples are the tones at their instants, the others are still 0. -/
def holdsBits (nrz : Nat → F64) (n : Nat) (w : Code) : Prop :=
  ∀ k < 5, w.getLsbD k = (decide (k < bitsDecided n) && isMark (nrz (264 + 177 * k)))

/-- `s` after `n` samples of a frame that started in it, with the word `w` so far: the timer runs to the next instant,
and nothing else has changed. -/
def midFrame (n : Nat) (w : Code) (s : State) : State :=
  { s with rxTimer := 265 + 177 * bitsDecided n - n, rxBitidx := bitsDecided n, rxWord := w }

@[simp] theorem midFrame_rxPhase (n : Nat) (w : Code) (s : State) : (midFrame n w s).rxPhase = s.rxPhase := rfl
@[simp] theorem midFrame_rxTimer (n : Nat) (w : Code) (s : State) :
    (midFrame n w s).rxTimer = 265 + 177 * bitsDecided n - n := rfl
@[simp] theorem midFrame_rxBitidx (n : Nat) (w : Code) (s : State) : (midFrame n w s).rxBitidx = bitsDecided n := rfl

theorem midFrame_zero (s : State) (htimer : s.rxTimer = 265) (hidx : s.rxBitidx = 0) (hword : s.rxWord = 0) :
    midFrame 0 0 s = s := by
  cases s
  cases htimer
  cases hidx
  cases hword
  rfl

/-- At an instant one more bit is decided. -/
theorem holdsBits_dataBit (nrz : Nat → F64) (n : Nat) (s : State) (hn : n = 264 + 177 * s.rxBitidx)
    (hidx : s.rxBitidx = bitsDecided n) (hbits : holdsBits nrz n s.rxWord) :
    holdsBits nrz (n + 1) (dataBit (isMark (nrz n)) s).rxWord := by
  intro k hk
  have hnext : bitsDecided (n + 1) = s.rxBitidx + 1 := by unfold bitsDecided; omega
  rw [dataBit_getLsbD _ _ k hk, hbits k hk, hnext, ← hidx]
  by_cases hbit : k = s.rxBitidx
  · simp [hbit, ← hn]
  · simp [hbit, show k < s.rxBitidx + 1 ↔ k < s.rxBitidx by omega]

/-- One more sample before the stop bit is due: between two instants the timer runs, at an instant the bit is the tone
of this very sample (R154). -/
theorem demod_midFrame (c : Cfg) (nrz : Nat → F64) (n : Nat) (w : Code) (s : State) (hsuppress : s.suppress = false)
    (hphase : s.rxPhase = .framing) (hn : n < 1149) (hbits : holdsBits nrz n w) :
    ∃ w', holdsBits nrz (n + 1) w' ∧ demod c (nrz n) (midFrame n w s) = midFrame (n + 1) w' s := by
  by_cases hinstant : n = 264 + 177 * bitsDecided n
  · have hnext : bitsDecided (n + 1) = bitsDecided n + 1 := by unfold bitsDecided at *; omega
    have hreload : 265 + 177 * (bitsDecided n + 1) - (n + 1) = 177 := by omega
    refine ⟨_, holdsBits_dataBit nrz n (midFrame n w s) hinstant rfl hbits, ?_⟩
    have hend : (midFrame n w s).rxTimer = 1 := by rw [midFrame_rxTimer]; omega
    have hdata : (midFrame n w s).rxBitidx < 5 := by rw [midFrame_rxBitidx]; omega
    rw [demod_of_data_bit c (nrz n) (midFrame n w s) hsuppress hphase hend hdata]
    simp [midFrame, dataBit, hnext, hreload]
  · have hnext : bitsDecided (n + 1) = bitsDecided n := by unfold bitsDecided at *; omega
    have htimer : 2 ≤ (midFrame n w s).rxTimer := by rw [midFrame_rxTimer]; unfold bitsDecided at *; omega
    refine ⟨w, fun k hk => by rw [hnext]; exact hbits k hk, ?_⟩
    rw [demod_of_timer_running c (nrz n) (midFrame n w s) hsuppress hphase htimer]
    simp [midFrame, hnext, Nat.sub_sub]

theorem demodRun_midFrame (c : Cfg) (nrz : Nat → F64) (s : State) (hsuppress : s.suppress = false)
    (hphase : s.rxPhase = .framing) (htimer : s.rxTimer = 265) (hidx : s.rxBitidx = 0) (hword : s.rxWord = 0) (n : Nat)
    (hn : n < 1150) : ∃ w, holdsBits nrz n w ∧ demodRun c ((List.range n).map nrz) s = midFrame n w s := by
  induction n with
  | zero => exact ⟨0, fun k _ => by simp [bitsDecided], (midFrame_zero s htimer hidx hword).symm⟩
  | succ n ih =>
    obtain ⟨w, hbits, hrun⟩ := ih (by omega)
    rw [List.range_succ, List.map_append, List.map_singleton, demodRun_concat, hrun]
    exact demod_midFrame c nrz n w s hsuppress hphase (by omega) hbits

/-- A frame that is over leaves nothing of its timer, index and word. -/
theorem rxClear_decodeCharacter_midFrame (c : Cfg) (code w : Code) (n : Nat) (s : State) :
    rxClear (decodeCharacter c code (midFrame n w s)) = rxClear (decodeCharacter c code s) := by
  simp [decodeCharacter_eq, rxClear, midFrame]

/-- Settles O30, by induction on the samples up to the stop bit: five bits are then decided and the timer is at its
last sample. -/
theorem frameIsDecidedAtTheSamplingInstants : Obligations.FrameIsDecidedAtTheSamplingInstants := by
  intro c nrz s hsuppress hphase htimer hidx hword
  have hframe := demodRun_midFrame c nrz s hsuppress hphase htimer hidx hword
  obtain ⟨w, hbits, hlast⟩ := hframe 1149 (by decide)
  have hfive : bitsDecided 1149 = 5 := rfl
  have hend : (midFrame 1149 w s).rxTimer = 1 := rfl
  refine ⟨w, fun k hk => ?_, fun n hn => ?_, ?_⟩
  · simpa [hfive, hk] using hbits k hk
  · obtain ⟨v, -, hrun⟩ := hframe n hn
    rw [hrun, midFrame_rxPhase, hphase]
  · rw [List.range_succ, List.map_append, List.map_singleton, demodRun_concat, hlast]
    cases hmark : isMark (nrz 1149) with
    | true =>
      rw [demod_of_stop_mark c (nrz 1149) (midFrame 1149 w s) hsuppress hphase hend.le hfive.ge hmark]
      exact rxClear_decodeCharacter_midFrame c w w 1149 s
    | false => exact demod_of_stop_space c (nrz 1149) (midFrame 1149 w s) hsuppress hphase hend hfive.ge hmark

end Sys2Proof.Machine
end

section
/-! PROOFS. No character is received while the block sends (spec/42_demodulator.md R162, spec/44_coordinator.md R225(a)):
agent RX is suppressed, and no other agent emits one. -/

namespace Sys2Proof.Machine

/-- The two states have received the same characters. -/
abbrev sameCharacters (s t : State) : Prop := receivedCharacters t.trace = receivedCharacters s.trace

theorem receivedCharacters_append (first second : List Event) :
    receivedCharacters (first ++ second) = receivedCharacters first ++ receivedCharacters second :=
  List.filterMap_append

theorem sameCharacters_of_events {s t : State} (new : List Event) (h : t.trace = s.trace ++ new)
    (hnew : receivedCharacters new = []) : sameCharacters s t := by
  rw [sameCharacters, h, receivedCharacters_append, hnew, List.append_nil]

/-- A sound state that sends is suppressed after the tick too: no guard is armed that could expire (R226). -/
theorem coordTick_suppress_of_sending (s : State) (hs : turnTakingSound s) (hsending : s.sending = true) :
    (coordTick s).suppress = true := by
  obtain ⟨hsuppress, -⟩ := coordTick_turnTakingSound s hs
  exact hsuppress ((coordTick_sending s).trans hsending)

theorem ReceiveEffect.trace_of_sending {s t : State} (h : ReceiveEffect s t) (hs : turnTakingSound s)
    (hsending : s.sending = true) : t.trace = s.trace := by
  cases h with
  | sample v present =>
    rw [rxSampleStep_of_suppressed hw v _ (coordTick_suppress_of_sending { s with capSample := present } hs hsending)]
    simp
  | halt => rfl
  | wait => rfl

theorem leaveService_sameCharacters (final : TxState) (s : State) : sameCharacters s (leaveService hw final s) := by
  obtain h | h := leaveService_trace_cases final s
  · exact congrArg receivedCharacters h
  · exact sameCharacters_of_events _ h rfl

/-- Agent TX emits no received character. -/
theorem TransmitEffect.keepsCharacters {s t : State} (h : TransmitEffect s t) : sameCharacters s t := by
  cases h with
  | wake => exact sameCharacters_of_events _ (txWakeStep_trace s) rfl
  | skip ch queue => exact sameCharacters_of_events _ (emit_trace (.skipped ch) { s with queue := queue }) rfl
  | accept f => exact sameCharacters_of_events _ (txAcceptSample_trace hw f s) rfl
  | stop => exact sameCharacters_of_events [.sendingChanged false] (by rw [txStopStep, stopSending_hw]) rfl
  | halt => exact leaveService_sameCharacters .halted s
  | stall =>
    exact (leaveService_sameCharacters .fault _).trans
      (sameCharacters_of_events _ (emit_trace (.error causeStall) { s with playCause := causeStall }) rfl)
  | _ => rfl

/-- Settles O47: agent RX is suppressed, and the other agents emit no character in any state. -/
theorem noCharacterWhileSending : Obligations.NoCharacterWhileSending := by
  rintro i s t ⟨-, -, hturn, -⟩ hsending h hreset
  rcases exec_agents i s t h hreset with heffect | heffect | ⟨text, rfl⟩ | ⟨-, rfl⟩
  · exact congrArg receivedCharacters (heffect.trace_of_sending hturn hsending)
  · exact heffect.keepsCharacters
  · exact congrArg receivedCharacters (hostEnqStep_trace hw text s)
  · exact congrArg receivedCharacters (shutdownStep_trace s)

end Sys2Proof.Machine
end

section
/-! PROOFS. ENCODE and the shift codes it inserts (spec/43_modulator.md R184, R194): a run of characters of one selector
costs one shift code if the mode differs. -/

namespace Sys2Proof.Machine

open Config (Cfg)

/-! ## One character -/

/-- The shift code that takes a sender from one mode to another, if one is needed (R194). -/
def shiftPrefix (mode sel : Shift) : List Code := if mode = sel then [] else [shiftCode sel]

/-- ENCODE of a mapped character, in either mode (R184). -/
theorem encodeCharacter_of_rev (c : Cfg) (ch : Char8) (k : Code) (sel : Shift) (s : State)
    (h : rev c.params ch = some (k, sel)) :
    encodeCharacter c ch s = { s with txPending := shiftPrefix s.txShift sel ++ [k], txShift := sel } := by
  rcases encodeCharacter_cases c ch s with ⟨hnone, -⟩ | ⟨j, other, hrev, hne, he⟩ | ⟨j, hrev, he⟩
  · rw [hnone] at h
    cases h
  · cases hrev.symm.trans h
    rw [he, shiftPrefix, if_neg (Ne.symm hne)]
    rfl
  · cases hrev.symm.trans h
    rw [he, shiftPrefix, if_pos rfl]
    rfl

/-- A text sent one character at a time. -/
theorem sentCodes_cons_of_rev (c : Cfg) (mode sel : Shift) (ch : Char8) (k : Code) (rest : List Char8)
    (h : rev c.params ch = some (k, sel)) :
    sentCodes c mode (ch :: rest) =
      (shiftPrefix mode sel ++ k :: (sentCodes c sel rest).1, (sentCodes c sel rest).2) := by
  rw [sentCodes, encodeCharacter_of_rev c ch k sel _ h]
  simp

/-! ## A run of one selector -/

/-- The codes of a text whose characters all have one selector. -/
abbrev codesOfRun (c : Cfg) (sel : Shift) : List Char8 → List Code → Prop :=
  List.Forall₂ (fun ch k => rev c.params ch = some (k, sel))

/-- In the mode of its selector a run is sent without a shift code. -/
theorem sentCodes_run_of_same_mode (c : Cfg) (sel : Shift) (text : List Char8)
    (h : ∀ ch ∈ text, ∃ k, rev c.params ch = some (k, sel)) :
    ∃ codes, codesOfRun c sel text codes ∧ sentCodes c sel text = (codes, sel) := by
  induction text with
  | nil => exact ⟨[], .nil, rfl⟩
  | cons ch rest ih =>
    obtain ⟨k, hk⟩ := h ch List.mem_cons_self
    obtain ⟨codes, hcodes, hsent⟩ := ih fun x hx => h x (List.mem_cons_of_mem ch hx)
    refine ⟨k :: codes, .cons hk hcodes, ?_⟩
    rw [sentCodes_cons_of_rev c sel sel ch k rest hk, hsent, shiftPrefix, if_pos rfl]
    rfl

/-- From any mode, the first character of a run brings the only shift code. -/
theorem sentCodes_run (c : Cfg) (mode sel : Shift) (text : List Char8) (hne : text ≠ [])
    (h : ∀ ch ∈ text, ∃ k, rev c.params ch = some (k, sel)) :
    ∃ codes, codesOfRun c sel text codes ∧ sentCodes c mode text = (shiftPrefix mode sel ++ codes, sel) := by
  cases text with
  | nil => exact absurd rfl hne
  | cons ch rest =>
    obtain ⟨k, hk⟩ := h ch List.mem_cons_self
    obtain ⟨codes, hcodes, hsent⟩ := sentCodes_run_of_same_mode c sel rest fun x hx => h x (List.mem_cons_of_mem ch hx)
    exact ⟨k :: codes, .cons hk hcodes, by rw [sentCodes_cons_of_rev c mode sel ch k rest hk, hsent]⟩

/-- Each code of a run is that of the character in its place. -/
theorem codesOfRun_getElem? (c : Cfg) (sel : Shift) (text : List Char8) (codes : List Code)
    (h : codesOfRun c sel text codes) (n : Nat) (ch : Char8) (k : Code) (hch : text[n]? = some ch)
    (hk : codes[n]? = some k) : rev c.params ch = some (k, sel) := by
  obtain ⟨hn, rfl⟩ := List.getElem?_eq_some_iff.1 hch
  obtain ⟨hn', rfl⟩ := List.getElem?_eq_some_iff.1 hk
  exact h.get hn hn'

/-- Settles O16: a run by its first character and the rest in the run's own mode; "SOS" is one run of letters, and a
digit after a letter is two runs of one character each. -/
theorem shiftCodesAreMinimal : Obligations.ShiftCodesAreMinimal := by
  refine ⟨fun c mode sel text hne hsel => ?_, ?_, fun letter digit k l _ _ _ _ hk hl => ?_⟩
  · obtain ⟨codes, hcodes, hsent⟩ := sentCodes_run c mode sel text hne hsel
    exact ⟨codes, hcodes.length_eq.symm, codesOfRun_getElem? c sel text codes hcodes, hsent⟩
  · have hS : rev hw.params 0x53 = some (0x05, .ltrs) := by decide
    have hO : rev hw.params 0x4F = some (0x18, .ltrs) := by decide
    rw [sentCodes_cons_of_rev hw _ .ltrs 0x53 0x05 _ hS, sentCodes_cons_of_rev hw _ .ltrs 0x4F 0x18 _ hO,
      sentCodes_cons_of_rev hw _ .ltrs 0x53 0x05 _ hS]
    rfl
  · rw [sentCodes_cons_of_rev hw _ .ltrs letter k _ hk, sentCodes_cons_of_rev hw _ .figs digit l _ hl]
    rfl

end Sys2Proof.Machine
end

section
/-! PROOFS. The transmit path operation by operation (spec/43_modulator.md R180 to R191): the operation that is enabled is
performed by name and by the tick, and its effect is the rule's. -/

namespace Sys2Proof.Machine

open Config (Cfg)

/-! ## By name and by the tick (R94, R96) -/

/-- An enabled operation of TX has one effect, presented by name or performed by a TXTICK. -/
theorem named_and_txtick_of_enabled (name : String) (resp : PlayResp) (drained : Bool) (s : State) (op : TxOp)
    (h : txEnabled resp drained s op = true) :
    whenEnabled name (txEnabled resp drained s op) (txStep hw resp s op) = .next (txStep hw resp s op) ∧
      exec (.txtick resp drained) s = .next (txStep hw resp s op) := by
  have hnamed := whenEnabled_of_enabled name _ (txStep hw resp s op) h
  exact ⟨hnamed, (exec_txtick_of_enabled name resp drained s op h).trans hnamed⟩

/-- Where the only operation a state leaves room for is not enabled by the inputs, a TXTICK does nothing. -/
theorem exec_txtick_of_candidate_disabled (resp : PlayResp) (drained : Bool) (s : State) (op : TxOp)
    (hcandidate : txCandidate s = some op) (h : txEnabled resp drained s op = false) :
    exec (.txtick resp drained) s = .next s := by
  refine congrArg Host.Outcome.next (txtickLine_of_none hw resp drained s fun other => ?_)
  by_contra henabled
  rw [Bool.not_eq_false] at henabled
  obtain rfl := Option.some.inj ((txCandidate_of_enabled resp drained s other henabled).symm.trans hcandidate)
  exact Bool.eq_false_iff.1 h henabled

/-! ## The enabling conditions (R94) -/

theorem txWakeEnabled_of_queued (s : State) (hidle : s.txState = .idle) (hreq : s.shutdownReq = false)
    (hqueue : s.queue ≠ []) : txWakeEnabled s = true := by
  simp [txWakeEnabled, hidle, hreq, hqueue]

theorem txLoadEnabled_of_boundary (s : State) (hsending : s.txState = .sending) (hframe : s.txFrame = none)
    (hreq : s.shutdownReq = false) : txLoadEnabled s = true := by
  simp [txLoadEnabled, hsending, hframe, hreq]

/-- In a frame, the answer alone decides whether TX_SAMPLE is enabled (R186). -/
theorem txSampleEnabled_of_frame (resp : PlayResp) (s : State) (f : TxFrame) (hsending : s.txState = .sending)
    (hframe : s.txFrame = some f) : txSampleEnabled resp s = answersSample resp := by
  simp [txSampleEnabled, hsending, hframe]

theorem txResumeEnabled_of_queued (s : State) (hdraining : s.txState = .draining) (hreq : s.shutdownReq = false)
    (hqueue : s.queue ≠ []) : txResumeEnabled s = true := by
  simp [txResumeEnabled, hdraining, hreq, hqueue]

/-- With an empty queue, the drained indication alone decides whether TX_STOP is enabled (R188). -/
theorem txStopEnabled_of_empty (drained : Bool) (s : State) (hdraining : s.txState = .draining)
    (hreq : s.shutdownReq = false) (hqueue : s.queue = []) : txStopEnabled drained s = drained := by
  simp [txStopEnabled, hdraining, hreq, hqueue]

/-! ## TX_WAKE, TX_RESUME and TX_STOP (R181, R187, R188) -/

/-- Settles O32. -/
theorem txWakeStartsSending : Obligations.TxWakeStartsSending := by
  intro s resp drained hidle hreq hqueue
  exact ⟨txWakeStep s, rfl,
    named_and_txtick_of_enabled _ resp drained s .wake (txWakeEnabled_of_queued s hidle hreq hqueue)⟩

/-- Settles O37. -/
theorem txResumeContinuesTheTransmission : Obligations.TxResumeContinuesTheTransmission := by
  intro s resp drained hdraining hreq hqueue
  exact named_and_txtick_of_enabled _ resp drained s .resume (txResumeEnabled_of_queued s hdraining hreq hqueue)

/-- Settles O38: TX_STOP is the only operation the state leaves room for, and `drained` enables it. -/
theorem txStopArmsTheGuard : Obligations.TxStopArmsTheGuard := by
  intro s resp hdraining hreq hqueue
  have henabled (drained : Bool) : txEnabled resp drained s .stop = drained :=
    txStopEnabled_of_empty drained s hdraining hreq hqueue
  have hcandidate : txCandidate s = some .stop := txCandidate_of_enabled resp true s .stop (henabled true)
  obtain ⟨hnamed, htick⟩ := named_and_txtick_of_enabled "TX_STOP" resp true s .stop (henabled true)
  refine ⟨txStopStep hw s, ?_, hnamed, htick,
    exec_txtick_of_candidate_disabled resp false s .stop hcandidate (henabled false)⟩
  rw [txStopStep, stopSending_hw]

/-! ## TX_LOAD (R182 to R185) -/

theorem loadFrame_of_pending (s : State) (code : Code) (rest : List Code) (h : s.txPending = code :: rest) :
    loadFrame s = { s with txPending := rest, txFrame := some ⟨code, 0, 0⟩ } := by
  rw [loadFrame, h]

theorem loadFrame_of_none_pending (s : State) (h : s.txPending = []) : loadFrame s = s := by
  rw [loadFrame, h]

theorem txLoadStep_of_pending (c : Cfg) (s : State) (code : Code) (rest : List Code) (h : s.txPending = code :: rest) :
    txLoadStep c s = { s with txPending := rest, txFrame := some ⟨code, 0, 0⟩ } := by
  simp [txLoadStep, loadFrame_of_pending s code rest h, h]

theorem txLoadStep_of_empty (c : Cfg) (s : State) (hpending : s.txPending = []) (hqueue : s.queue = []) :
    txLoadStep c s = { s with txState := .draining } := by
  simp [txLoadStep, hpending, hqueue, popChar]

/-- With nothing pending, TX_LOAD takes the character at the head of the queue. -/
theorem txLoadStep_of_head (c : Cfg) (s : State) (ch : Char8) (rest : List Char8) (hpending : s.txPending = [])
    (hqueue : s.queue = ch :: rest) :
    txLoadStep c s = loadFrame (encodeCharacter c ch { s with queue := rest }) := by
  simp [txLoadStep, hpending, hqueue, popChar]

theorem txLoadStep_of_unmapped (c : Cfg) (s : State) (ch : Char8) (rest : List Char8) (hpending : s.txPending = [])
    (hqueue : s.queue = ch :: rest) (hrev : rev c.params ch = none) :
    txLoadStep c s = { s with queue := rest, trace := s.trace ++ [.skipped ch] } := by
  have hencode : encodeCharacter c ch { s with queue := rest } = emit (.skipped ch) { s with queue := rest } := by
    rw [encodeCharacter, hrev]
  rw [txLoadStep_of_head c s ch rest hpending hqueue, hencode,
    loadFrame_of_none_pending (emit (.skipped ch) { s with queue := rest }) hpending, emit]

theorem txLoadStep_of_same_mode (c : Cfg) (s : State) (ch : Char8) (rest : List Char8) (k : Code)
    (hpending : s.txPending = []) (hqueue : s.queue = ch :: rest) (hrev : rev c.params ch = some (k, s.txShift)) :
    txLoadStep c s = { s with queue := rest, txFrame := some ⟨k, 0, 0⟩ } := by
  rw [txLoadStep_of_head c s ch rest hpending hqueue, encodeCharacter_of_rev c ch k s.txShift _ hrev,
    loadFrame_of_pending _ k [] (by simp [shiftPrefix]), ← hpending]

theorem txLoadStep_of_other_mode (c : Cfg) (s : State) (ch : Char8) (rest : List Char8) (k : Code) (sel : Shift)
    (hpending : s.txPending = []) (hqueue : s.queue = ch :: rest) (hrev : rev c.params ch = some (k, sel))
    (hsel : sel ≠ s.txShift) :
    txLoadStep c s =
      { s with queue := rest, txShift := sel, txPending := [k], txFrame := some ⟨shiftCode sel, 0, 0⟩ } := by
  rw [txLoadStep_of_head c s ch rest hpending hqueue, encodeCharacter_of_rev c ch k sel _ hrev,
    loadFrame_of_pending _ (shiftCode sel) [k] (by simp [shiftPrefix, hsel.symm])]

theorem shiftCode_eq (sel : Shift) : shiftCode sel = if sel = .figs then 0x1B else 0x1F := by cases sel <;> rfl

/-- Settles O33: the five things TX_LOAD can find. -/
theorem txLoadFramesTheNextCode : Obligations.TxLoadFramesTheNextCode := by
  intro s resp drained hsending hframe hreq
  obtain ⟨hnamed, htick⟩ := named_and_txtick_of_enabled "TX_LOAD" resp drained s .load
    (txLoadEnabled_of_boundary s hsending hframe hreq)
  refine ⟨txLoadStep hw s, hnamed, htick, txLoadStep_of_pending hw s, txLoadStep_of_empty hw s,
    fun ch rest hpending hqueue => ⟨?_, fun k => ?_, fun k sel hrev hsel => ?_⟩⟩
  · exact txLoadStep_of_unmapped hw s ch rest hpending hqueue
  · exact txLoadStep_of_same_mode hw s ch rest k hpending hqueue
  · rw [txLoadStep_of_other_mode hw s ch rest k sel hpending hqueue hrev hsel, shiftCode_eq]

/-! ## TX_SAMPLE (R186, R189, R191) -/

/-- CELL_BIT with the stop cell named by its number (R189). -/
theorem cellBit_eq (code : Code) (cell : Fin 7) :
    cellBit code cell =
      if cell.val = 0 then false else if cell.val = 6 then true else code.getLsbD (cell.val - 1) := by
  unfold cellBit
  by_cases hstop : cell.val = 6
  · simp [hstop]
  · simp [hstop, show cell.val ≤ 5 by omega]

theorem nextFrame_of_cell_unfinished (f : TxFrame) (h : f.smp + 1 ≠ 177) :
    nextFrame f = some { f with smp := f.smp + 1 } := if_neg h

theorem nextFrame_of_last_cell (f : TxFrame) (h : f.smp + 1 = 177) (hcell : f.cell.val = 6) : nextFrame f = none := by
  simp [nextFrame, h, hcell]

theorem nextFrame_of_next_cell (f : TxFrame) (h : f.smp + 1 = 177) (hcell : f.cell.val ≠ 6) :
    ∃ g, nextFrame f = some g ∧ g.code = f.code ∧ g.cell.val = f.cell.val + 1 ∧ g.smp = 0 := by
  have hnext : f.cell.val + 1 < 7 := by omega
  exact ⟨⟨f.code, ⟨f.cell.val + 1, hnext⟩, 0⟩, by simp [nextFrame, h, hnext], rfl, rfl, rfl⟩

/-- In a frame, TX_SAMPLE with an answer that enables it, by name and by the tick. -/
theorem txSample_named_and_txtick (resp : PlayResp) (drained : Bool) (s : State) (f : TxFrame)
    (hsending : s.txState = .sending) (hframe : s.txFrame = some f) (hresp : answersSample resp = true) :
    exec (.txSample resp) s = .next (txSampleStep hw resp s) ∧
      exec (.txtick resp drained) s = .next (txSampleStep hw resp s) :=
  named_and_txtick_of_enabled "TX_SAMPLE" resp drained s .sample
    ((txSampleEnabled_of_frame resp s f hsending hframe).trans hresp)

theorem txSampleStep_accept (c : Cfg) (s : State) (f : TxFrame) (hframe : s.txFrame = some f) :
    txSampleStep c .accept s = txAcceptSample c f s := by
  simp [txSampleStep, effectiveResp, hframe]

/-- A STALL raises cause 3, a fault of the transmit path (R243, R245). -/
theorem txSampleStep_stall (c : Cfg) (s : State) (f : TxFrame) (hframe : s.txFrame = some f) :
    txSampleStep c .stall s = txFault c causeStall s := by
  rw [← raiseFault_transmit c causeStall s (by decide)]
  simp [txSampleStep, effectiveResp, hframe]

/-- Settles O34: the sample is SYNTH's, and the frame goes on by the three cases of its position. -/
theorem txSampleAcceptPutsOutOneSample : Obligations.TxSampleAcceptPutsOutOneSample := by
  intro s f drained hsending hframe mark out sum
  have hmark : cellBit f.code f.cell = mark := cellBit_eq f.code f.cell
  obtain ⟨hnamed, htick⟩ := txSample_named_and_txtick .accept drained s f hsending hframe rfl
  rw [txSampleStep_accept hw s f hframe] at hnamed htick
  refine ⟨txAcceptSample hw f s, hnamed, htick, ?_, nextFrame_of_cell_unfinished f, nextFrame_of_last_cell f,
    nextFrame_of_next_cell f⟩
  rw [txAcceptSample, hmark]
  rfl

/-- TX_FAULT of a path that was sending: the error comes before the stop notification (R244, R249(d)). -/
theorem txFault_of_sending (code : Cause) (s : State) (h : s.sending = true) :
    txFault hw code s =
      { s with
        playCause := code, trace := s.trace ++ [.error code, .sendingChanged false], txFrame := none, txPending := []
        sending := false, guardArmed := true, guardCount := 4096, txState := .fault } := by
  have hsending : (emit (.error code) { s with playCause := code }).sending = true := h
  rw [txFault, leaveService_of_sending .fault _ hsending, emit_trace, List.append_assoc]
  rfl

/-- TX_FAULT of a path that was not sending (R244). -/
theorem txFault_of_not_sending (c : Cfg) (code : Cause) (s : State) (h : s.sending = false) :
    txFault c code s =
      { s with
        playCause := code, trace := s.trace ++ [.error code], txFrame := none, txPending := [], txState := .fault } := by
  have hsending : (emit (.error code) { s with playCause := code }).sending = false := h
  rw [txFault, leaveService_of_not_sending c .fault _ hsending]
  rfl

/-- Settles O35: the fault entry with cause 3, by whether the path was sending. -/
theorem txSampleStallFaultsThePath : Obligations.TxSampleStallFaultsThePath := by
  intro s f drained hsending hframe
  obtain ⟨hnamed, htick⟩ := txSample_named_and_txtick .stall drained s f hsending hframe rfl
  rw [txSampleStep_stall hw s f hframe] at hnamed htick
  exact ⟨txFault hw causeStall s, hnamed, htick, txFault_of_sending causeStall s, txFault_of_not_sending hw causeStall s⟩

theorem answersSample_of_busy (resp : PlayResp) (h : resp = .busy ∨ resp = .reserved) : answersSample resp = false := by
  rcases h with rfl | rfl <;> rfl

/-- Settles O36: in a frame the state leaves room for TX_SAMPLE alone, and BUSY does not enable it. -/
theorem busyAnswerHoldsTheSample : Obligations.BusyAnswerHoldsTheSample := by
  intro s f resp drained hsending hframe hresp
  have hcandidate : txCandidate s = some .sample := by simp [txCandidate, hsending, hframe]
  have hdisabled : txSampleEnabled resp s = false :=
    (txSampleEnabled_of_frame resp s f hsending hframe).trans (answersSample_of_busy resp hresp)
  refine ⟨exec_txtick_of_candidate_disabled resp drained s .sample hcandidate hdisabled,
    whenEnabled_of_disabled "TX_SAMPLE" _ _ hdisabled, ?_⟩
  rw [offeredSample, hsending, hframe]
  rfl

/-! ## HOST_ENQ (R180) -/

/-- A finite queue has room for what does not take it over its depth. -/
theorem hostEnqEnabled_of_depth (c : Cfg) (depth : Nat) (text : List Char8) (s : State)
    (h : c.params.queueDepth = some depth) :
    hostEnqEnabled c text s = decide (s.queue.length + text.length ≤ depth) := by
  rw [hostEnqEnabled, hasRoom, h]

theorem hostEnqStep_of_room (c : Cfg) (text : List Char8) (s : State) (h : hostEnqEnabled c text s = true) :
    hostEnqStep c text s = { s with queue := s.queue ++ text, hostAccept := true } := by
  rw [hostEnqStep, if_pos h, pushText_eq]

theorem hostEnqStep_of_no_room (c : Cfg) (text : List Char8) (s : State) (h : hostEnqEnabled c text s = false) :
    hostEnqStep c text s = { s with hostAccept := false } := by
  rw [hostEnqStep, h]
  rfl

/-- Settles O54: this hardware always has room, a finite queue by its depth. -/
theorem hostEnqTakesAllOrNothing : Obligations.HostEnqTakesAllOrNothing := by
  refine ⟨fun s text ch => ⟨?_, ?_⟩, fun c depth text s hdepth => ⟨fun hfits => ?_, fun hfull => ?_⟩⟩
  · exact congrArg Host.Outcome.next (hostEnqStep_hw text s)
  · exact congrArg Host.Outcome.next (hostEnqStep_hw [ch] s)
  · refine hostEnqStep_of_room c text s ?_
    rw [hostEnqEnabled_of_depth c depth text s hdepth, decide_eq_true hfits]
  · refine hostEnqStep_of_no_room c text s ?_
    rw [hostEnqEnabled_of_depth c depth text s hdepth, decide_eq_false (Nat.not_le.2 hfull)]

end Sys2Proof.Machine
end

section
/-! PROOFS. The turn-taking coordinator (spec/44_coordinator.md R221 to R226): who may change the suppression, how many
samples a guard lasts, and that a transmission is not heard. -/

namespace Sys2Proof.Machine

/-! ## The immediate policy (R222, R224) -/

/-- Settles O45: COORD_STOP without a guard clears the suppression. -/
theorem immediatePolicyClearsAtOnce : Obligations.ImmediatePolicyClearsAtOnce := by
  intro c s hguard
  rw [txStopStep, stopSending, coordStop_immediate c _ hguard]
  rfl

/-! ## Who changes the suppression (R225 (d)) -/

/-- LEAVE_SERVICE arms the guard of this hardware, whose expiry is what ends the suppression. -/
theorem leaveService_suppress (final : TxState) (s : State) : (leaveService hw final s).suppress = s.suppress := by
  cases hsending : s.sending with
  | false => rw [leaveService_of_not_sending hw final s hsending]
  | true => rw [leaveService_of_sending final s hsending]

/-- Of agent TX only TX_WAKE changes the suppression. -/
theorem TransmitEffect.suppress_eq_or_wake {s t : State} (h : TransmitEffect s t) :
    t.suppress = s.suppress ∨ (s.txState = .idle ∧ t = txWakeStep s) := by
  cases h with
  | wake hidle => exact .inr ⟨hidle, rfl⟩
  | accept f => exact .inl (txAcceptSample_suppress hw f s)
  | stall => exact .inl (leaveService_suppress .fault _)
  | stop => exact .inl (by rw [txStopStep, stopSending_hw])
  | halt => exact .inl (leaveService_suppress .halted s)
  | _ => exact .inl rfl

/-- Of agent RX only the tick of a guard's last sample changes the suppression. -/
theorem ReceiveEffect.suppress_eq_or_expiry {s t : State} (h : ReceiveEffect s t) :
    t.suppress = s.suppress ∨ (t.suppress = false ∧ s.guardArmed = true ∧ s.guardCount ≤ 1) := by
  cases h with
  | sample v present =>
    rw [rxSampleStep_suppress]
    rcases coordTick_cases { s with capSample := present } with
      ⟨-, htick⟩ | ⟨-, -, htick⟩ | ⟨harmed, hcount, htick⟩ <;> rw [htick]
    · exact .inl rfl
    · exact .inl rfl
    · exact .inr ⟨rfl, harmed, hcount⟩
  | halt => exact .inl rfl
  | wait => exact .inl rfl

/-- But for RESET, the suppression changes in a TX_WAKE or in the sample a guard expires in. -/
theorem exec_suppress_cases (i : Instr) (s t : State) (h : exec i s = .next t) (hreset : performsReset i = false) :
    t.suppress = s.suppress ∨ (performsTransmit i = true ∧ s.txState = .idle ∧ t = txWakeStep s) ∨
      (performsReceive i = true ∧ t.suppress = false ∧ s.guardArmed = true ∧ s.guardCount ≤ 1) := by
  cases hreceive : performsReceive i with
  | true => exact (exec_receive i s t hreceive h).suppress_eq_or_expiry.imp_right fun hexpiry => .inr ⟨rfl, hexpiry⟩
  | false =>
    cases htransmit : performsTransmit i with
    | true => exact (exec_transmit i s t htransmit h).suppress_eq_or_wake.imp_right fun hwake => .inl ⟨rfl, hwake⟩
    | false =>
      rcases exec_host i s t hreset hreceive htransmit h with ⟨text, rfl⟩ | ⟨-, rfl⟩
      · exact .inl (hostEnqStep_suppress hw text s)
      · exact .inl (shutdownStep_suppress s)

/-- Settles O46: TX_WAKE leaves the suppression set, and the expiry of a guard leaves it clear. -/
theorem suppressChangesOnlyByWakeAndExpiry : Obligations.SuppressChangesOnlyByWakeAndExpiry := by
  intro i s t h hreset
  rcases exec_suppress_cases i s t h hreset with hsame | ⟨htransmit, hidle, rfl⟩ | ⟨hreceive, hclear, hguard⟩
  · exact ⟨fun hs ht => by simp [hsame, hs] at ht, fun hs ht => by simp [hsame, hs] at ht⟩
  · exact ⟨fun _ _ => ⟨htransmit, hidle, rfl⟩, fun _ hclear => absurd hclear (by simp)⟩
  · exact ⟨fun _ hset => absurd hset (by simp [hclear]), fun _ _ => ⟨hreceive, hguard⟩⟩

/-! ## The guard, sample by sample (R223, R225 (b)) -/

/-- A guard with `n` samples left, counting them with reception suppressed; with none left it is disarmed and reception
is open. -/
abbrev guardLeft (n : Nat) (s : State) : Prop :=
  s.suppress = decide (0 < n) ∧ s.guardArmed = decide (0 < n) ∧ s.guardCount = n

theorem coordTick_guardLeft (n : Nat) (s : State) (h : guardLeft n s) : guardLeft (n - 1) (coordTick s) := by
  obtain ⟨hsuppress, harmed, rfl⟩ := h
  rcases coordTick_cases s with ⟨hoff, htick⟩ | ⟨-, hmore, htick⟩ | ⟨-, hlast, htick⟩ <;> rw [htick]
  · have hzero : s.guardCount = 0 := by simpa [harmed] using hoff
    simp [guardLeft, hsuppress, harmed, hzero]
  · have hpos : 0 < s.guardCount := by omega
    have hleft : 0 < s.guardCount - 1 := by omega
    simp [guardLeft, hsuppress, harmed, hpos, hleft]
  · have hzero : s.guardCount - 1 = 0 := by omega
    simp [guardLeft, hzero]

theorem sampleLine_of_run (v : Sample) (s : State) (hrun : s.rxState = .run) (hreq : s.shutdownReq = false) :
    sampleLine hw v s = rxSampleStep hw v s :=
  if_pos ((rxSampleEnabled_iff s).2 ⟨hrun, by simp [hreq]⟩)

/-- Each sample takes one off the guard, whatever its value. -/
theorem runSamples_guardLeft (vs : List Sample) (n : Nat) (s : State) (hrun : s.rxState = .run)
    (hreq : s.shutdownReq = false) (h : guardLeft n s) : guardLeft (n - vs.length) (runSamples vs s) := by
  induction vs generalizing n s with
  | nil => exact h
  | cons v vs ih =>
    have hnext : guardLeft (n - 1) (rxSampleStep hw v s) := by
      simpa only [guardLeft, rxSampleStep_suppress, rxSampleStep_guardArmed, rxSampleStep_guardCount] using
        coordTick_guardLeft n s h
    rw [runSamples, sampleLine_of_run v s hrun hreq, List.length_cons, Nat.add_comm, ← Nat.sub_sub]
    exact ih (n - 1) _ (by simpa using hrun) (by simpa using hreq) hnext

/-- Settles O43: after `k` samples the guard has its count less `k` left. -/
theorem guardExpiresAfterItsCount : Obligations.GuardExpiresAfterItsCount := by
  intro vs s hrun hreq hsuppress harmed hcount
  have hpos : decide (0 < s.guardCount) = true := decide_eq_true hcount
  have hleft : guardLeft (s.guardCount - vs.length) (runSamples vs s) :=
    runSamples_guardLeft vs s.guardCount s hrun hreq ⟨hsuppress.trans hpos.symm, harmed.trans hpos.symm, rfl⟩
  refine ⟨fun hlt => ?_, fun hle => ?_⟩
  · rwa [guardLeft, decide_eq_true (Nat.sub_pos_of_lt hlt)] at hleft
  · rwa [Nat.sub_eq_zero_of_le hle] at hleft

/-! ## No stale guard (R226) -/

theorem sampleLine_effect (v : Sample) (s : State) : ReceiveEffect s (sampleLine hw v s) :=
  exec_receive (.sample v) s _ rfl rfl

theorem ReceiveEffect.keeps_turnTakingSound {s t : State} (h : ReceiveEffect s t) (hs : turnTakingSound s) :
    turnTakingSound t := by
  cases h with
  | sample v present => exact rxSampleStep_turnTakingSound v _ hs
  | halt => exact hs
  | wait => exact hs

/-- TX_WAKE disarms whatever guard was pending. -/
theorem txWakeStep_turnTakingSound (s : State) : turnTakingSound (txWakeStep s) := by simp [turnTakingSound]

/-- Samples alone neither end a transmission nor are heard during it. -/
theorem runSamples_of_sending (vs : List Sample) (s : State) (hs : turnTakingSound s) (hsending : s.sending = true) :
    (runSamples vs s).suppress = true ∧ (runSamples vs s).sending = true ∧ (runSamples vs s).trace = s.trace := by
  induction vs generalizing s with
  | nil => exact ⟨hs.1 hsending, hsending, rfl⟩
  | cons v vs ih =>
    have heffect := sampleLine_effect v s
    obtain ⟨-, -, hsame, -⟩ := heffect.keepsTransmitter
    rw [runSamples, ← heffect.trace_of_sending hs hsending]
    exact ih _ (heffect.keeps_turnTakingSound hs) (hsame.trans hsending)

/-- Settles O44: the state a TX_WAKE leaves is one that sends with no guard armed, whatever was pending. -/
theorem noStaleGuardAfterWake : Obligations.NoStaleGuardAfterWake := by
  intro vs s t h
  obtain ⟨-, rfl⟩ := (whenEnabled_next _ _ _ _).1 h
  exact runSamples_of_sending vs _ (txWakeStep_turnTakingSound s) rfl

end Sys2Proof.Machine
end

section
/-! PROOFS. The shutdown request (spec/60_exceptions.md R261 to R263): it disables the operations that would go on
transmitting, and each path leaves service at its boundary. -/

namespace Sys2Proof.Machine

/-! ## SHUTDOWN (R261) -/

theorem exec_shutdown (s : State) : exec .shutdown s = .next (shutdownStep s) :=
  congrArg Host.Outcome.next (if_pos hw_hasShutdown)

theorem exec_opShutdown (s : State) : exec .opShutdown s = .next (shutdownStep s) :=
  whenEnabled_of_enabled "SHUTDOWN" _ _ hw_hasShutdown

theorem shutdownStep_of_requested (s : State) (hreq : s.shutdownReq = true) : shutdownStep s = s := by
  rw [shutdownStep, ← hreq]

/-- Under a request TX only finishes a frame or halts: every other operation is disabled, whatever the inputs. -/
theorem txEnabled_of_requested (resp : PlayResp) (drained : Bool) (s : State) (op : TxOp) (hreq : s.shutdownReq = true)
    (hsample : op ≠ .sample) (hhalt : op ≠ .halt) : txEnabled resp drained s op = false := by
  cases op with
  | wake => simp [txEnabled, txWakeEnabled, hreq]
  | load => simp [txEnabled, txLoadEnabled, hreq]
  | sample => exact absurd rfl hsample
  | resume => simp [txEnabled, txResumeEnabled, hreq]
  | stop => simp [txEnabled, txStopEnabled, hreq]
  | halt => exact absurd rfl hhalt

/-- Settles O52. -/
theorem shutdownLatchesTheRequest : Obligations.ShutdownLatchesTheRequest := by
  intro s
  have hreq : (shutdownStep s).shutdownReq = true := shutdownStep_shutdownReq s
  have hagain : exec .shutdown (shutdownStep s) = .next (shutdownStep s) :=
    (exec_shutdown _).trans (congrArg Host.Outcome.next (shutdownStep_of_requested _ hreq))
  have hdisabled (drained : Bool) (op : TxOp) :
      op ≠ .sample → op ≠ .halt → txEnabled .accept drained (shutdownStep s) op = false :=
    txEnabled_of_requested .accept drained _ op hreq
  exact ⟨shutdownStep s, rfl, exec_shutdown s, exec_opShutdown s, hagain,
    hdisabled true .wake nofun nofun, hdisabled true .load nofun nofun, hdisabled true .resume nofun nofun,
    fun drained => hdisabled drained .stop nofun nofun⟩

/-! ## RX_HALT (R262) -/

theorem rxHaltEnabled_of_blockStart (s : State) (hrun : s.rxState = .run) (hreq : s.shutdownReq = true)
    (hpos : s.rxBlockPos = 0) : rxHaltEnabled s = true := by
  simp [rxHaltEnabled, hrun, hreq, hpos]

/-- Settles O31: at a block boundary RX_HALT is enabled, and is what a SAMPLE line performs. -/
theorem rxHaltStopsTheCapturePath : Obligations.RxHaltStopsTheCapturePath := by
  intro s v hrun hreq hpos
  have henabled := rxHaltEnabled_of_blockStart s hrun hreq hpos
  have hnamed : exec .rxHalt s = .next (rxHaltStep s) := whenEnabled_of_enabled "RX_HALT" _ _ henabled
  exact ⟨hnamed, (exec_sample_of_rxHalt v s henabled).trans hnamed⟩

/-! ## TX_HALT (R244, R263) -/

theorem txHaltEnabled_of_boundary (s : State) (hreq : s.shutdownReq = true)
    (hboundary : s.txState = .idle ∨ s.txState = .draining ∨ (s.txState = .sending ∧ s.txFrame = none)) :
    txHaltEnabled s = true := by
  rcases hboundary with hidle | hdraining | ⟨hsending, hframe⟩
  · simp [txHaltEnabled, txAtBoundary, hreq, hidle]
  · simp [txHaltEnabled, txAtBoundary, hreq, hdraining]
  · simp [txHaltEnabled, txAtBoundary, hreq, hsending, hframe]

/-- Settles O39: TX_HALT is LEAVE_SERVICE, whose effect depends on whether the path was sending. -/
theorem txHaltLeavesService : Obligations.TxHaltLeavesService := by
  intro s resp drained hreq hboundary
  obtain ⟨hnamed, htick⟩ :=
    named_and_txtick_of_enabled "TX_HALT" resp drained s .halt (txHaltEnabled_of_boundary s hreq hboundary)
  exact ⟨txHaltStep hw s, hnamed, htick, leaveService_of_sending .halted s, leaveService_of_not_sending hw .halted s⟩

end Sys2Proof.Machine
end

section
/-! PROOFS. RESET from any state (spec/70_reset_and_hazards.md R270): the reset values of R22, then the faults of the
devices that are not there, in R249(a)'s order. -/

namespace Sys2Proof.Machine

open Config (Cfg)

/-- The reset values and the capture path's availability: a missing capture device writes its cause, the state of the
receive path and one event. -/
def resetCapture (capOk : Bool) (s : State) : State :=
  { resetFields s with
    rxState := if capOk then .run else .fault
    capCause := if capOk then causeNone else causeCapture
    trace := if capOk then [] else [.error causeCapture] }

/-- `resetCapture` is what RESET has done before it turns to the playback device. -/
theorem capture_fault_of_resetFields (c : Cfg) (capOk : Bool) (s : State) :
    (if capOk then resetFields s else raiseFault c causeCapture (resetFields s)) = resetCapture capOk s := by
  cases capOk with
  | true => rfl
  | false => exact raiseFault_capture c (resetFields s)

/-- All of RESET: the reset values start out not sending, so a missing playback device writes its cause, the state of
the transmit path and one event after the capture path's. -/
theorem resetBlock_eq (c : Cfg) (capOk playOk : Bool) (s : State) :
    resetBlock c capOk playOk s =
      { resetCapture capOk s with
        txState := if playOk then .idle else .fault
        playCause := if playOk then causeNone else causePlayback
        trace := (if capOk then [] else [.error causeCapture]) ++ (if playOk then [] else [.error causePlayback]) } := by
  simp only [resetBlock, capture_fault_of_resetFields]
  cases playOk with
  | true => simp [resetCapture, resetFields, State.reset]
  | false =>
    have hsending : (resetCapture capOk s).sending = false := rfl
    have hentry := raiseFault_transmit c causePlayback (resetCapture capOk s) (by decide)
    exact hentry.trans (txFault_of_not_sending c causePlayback _ hsending)

/-- Settles O48: both rows perform RESET, whose values are those of R22's column. -/
theorem resetGivesTheResetValues : Obligations.ResetGivesTheResetValues := by
  intro s capOk playOk
  refine ⟨resetBlock hw capOk playOk s, runReset_hw capOk playOk s, runReset_hw capOk playOk s, ?_⟩
  rw [resetBlock_eq]
  rfl

end Sys2Proof.Machine
end
